-- ==== Sys2Proof/Word.lean ====
section
/-! DEFINITION. The word types of the Trenus D48: bytes, instruction words, scalars, register rows and
granules, and the sparse store in which files and memories are held. -/
namespace Sys2Proof

/-- One byte of memory. -/
abbrev Byte := BitVec 8
/-- One 32-bit word: an instruction word (R29) or a vector cell (R196). -/
abbrev Word32 := BitVec 32
/-- One scalar register (R194). -/
abbrev Scalar := BitVec 64
/-- The 256-byte image of a vector row (R196), of an accumulator row (R198) or of the 128 components of a
direction register (R281); cell i stands in bits 32i + 31 to 32i. -/
abbrev Row := BitVec 2048
/-- One 64-byte granule (R151), byte i in bits 8i + 7 to 8i. -/
abbrev Gran := BitVec 512
/-- A sparse store of w-bit values by number, keys strictly rising, no entry equal to the store's default. -/
abbrev Store (w : Nat) := List (Nat × BitVec w)

end Sys2Proof
end

