-- ==== Sys2Proof/Syntax/Fields.lean ====
section
/-! DEFINITION. The types of the fields an operation word carries (02 R47-R48, 03 R59-R66, 12 R216, R225) and of
what a step that comes from outside a tile carries. -/
namespace Sys2Proof

/-- The nine slot classes (R30). -/
inductive Cls where
  | c | s | v | f | m | x | k | d | n
deriving DecidableEq, Repr

/-- The format codes of R216. -/
inductive Fmt where
  | f32 | bf16 | f16 | e5m2 | e4m3 | e3m2 | e2m3 | e2m1
  | i8 | u8 | i4 | u4 | i16
  | bp2 | bp3 | bp4 | bp5 | bp6 | bp7 | bp8
  | i32 | u32 | q15 | e8m0
deriving DecidableEq, Repr

/-- The rounding-mode codes 0 to 6 of R225. -/
inductive Rm where
  | rne | rz | ru | rd | rna | sr | dyn
deriving DecidableEq, Repr

/-- A vector operand (R48). -/
inductive View where
  | row (r : BitVec 10)
  | col (p c : BitVec 6)
  | diag (p d : BitVec 6)
  | spec (k : BitVec 6)
deriving DecidableEq, Repr

/-- Lane directions (R59). -/
inductive Dir where
  | east | west | north | south
deriving DecidableEq, Repr

/-- The scopes of R368. -/
inductive Scope where
  | tile | bed | plot | device | system
deriving DecidableEq, Repr

/-- Barrier and walker scopes (R169, R349). -/
inductive BScope where
  | tile | bed | plot
deriving DecidableEq, Repr

/-- The compares of WAITA (R343, R353). -/
inductive Cmp where
  | eq | ne | ge | lt
deriving DecidableEq, Repr

/-- The hop ages of LOOPS (R343). -/
inductive Age where
  | h1 | h5 | h640
deriving DecidableEq, Repr

/-- Direction group sizes, codes 0 to 5 of R61. -/
inductive Grp where
  | g1 | g2 | g4 | g8 | g16 | g32
deriving DecidableEq, Repr

/-- The amount field of R272. -/
inductive Amt where
  | imm (n : BitVec 7)
  | reg (s : BitVec 6)
deriving DecidableEq, Repr

/-- The reduction operators of R275. -/
inductive Red where
  | sum | max | min
deriving DecidableEq, Repr

/-- The decompressor modes of R304. -/
inductive DMode where
  | none | s24 | bpl
deriving DecidableEq, Repr

/-- The scale bank an X operation names (R323). -/
inductive Scl where
  | none | l0 | l1
deriving DecidableEq, Repr

/-- Transfer sizes of LDS and STS (R177). -/
inductive Size where
  | b8 | b16 | b32 | b64
deriving DecidableEq, Repr

/-- The address fields of an M-class operation (R62). -/
structure MAddr where
  sa : BitVec 6
  off : BitVec 20
  astep : BitVec 8
  rstep : BitVec 3
deriving DecidableEq, Repr

/-- The fields of VADD, VSUB, VMUL and VFMA (R260). -/
structure VArith where
  fmt : Fmt
  rm : Rm
  sat : Bool
  dst : View
  a : View
  b : View
  rstep : BitVec 3
deriving DecidableEq, Repr

/-- A format and three views (R260). -/
structure VBin where
  fmt : Fmt
  dst : View
  a : View
  b : View
  rstep : BitVec 3
deriving DecidableEq, Repr

/-- VABS and VNEG (R260). -/
structure VUn where
  fmt : Fmt
  sat : Bool
  dst : View
  a : View
  rstep : BitVec 3
deriving DecidableEq, Repr

/-- VCVT and VCVTEF (R264). -/
structure VCvt where
  fmt : Fmt
  sfmt : Fmt
  part : BitVec 3
  rm : Rm
  sat : Bool
  dst : View
  a : View
  rstep : BitVec 3
deriving DecidableEq, Repr

/-- The rotate, broadcast and funnel operations (R272). -/
structure VShift where
  fmt : Fmt
  dst : View
  a : View
  amt : Amt
  rstep : BitVec 3
deriving DecidableEq, Repr

/-- VREDR and VREDC (R275). -/
structure VRed where
  fmt : Fmt
  op : Red
  dst : View
  a : View
  rstep : BitVec 3
deriving DecidableEq, Repr

/-- Three direction groups (R288). -/
structure DTri where
  g : Grp
  d : BitVec 6
  a : BitVec 6
  b : BitVec 6
  rstep : BitVec 3
deriving DecidableEq, Repr

/-- Two register numbers and a group (R288). -/
structure DPair where
  g : Grp
  d : BitVec 6
  a : BitVec 6
  rstep : BitVec 3
deriving DecidableEq, Repr

/-- The one-operand special functions (R279). -/
structure FUn where
  fmt : Fmt
  rm : Rm
  dst : View
  a : View
  rstep : BitVec 3
deriving DecidableEq, Repr

/-- The scalar divisions (R280). -/
structure SDiv where
  d : BitVec 6
  a : BitVec 6
  b : BitVec 6
  rstep : BitVec 3
deriving DecidableEq, Repr

/-- MMA and MMAZ (R323). -/
structure XMma where
  fa : Fmt
  fb : Fmt
  acc : BitVec 3
  ksel : BitVec 4
  dmode : DMode
  scl : Scl
  kstep : Bool
  av : View
  half : Bool
  goff : BitVec 10
  gstep : Bool
  rstep : BitVec 3
deriving DecidableEq, Repr

/-- MSEQ (R323). -/
structure XSeq where
  fa : Fmt
  fb : Fmt
  acc : BitVec 3
  ksel : BitVec 4
  dmode : DMode
  scl : Scl
  zrun : Bool
  av : View
  sp : BitVec 6
  rstep : BitVec 3
deriving DecidableEq, Repr

/-- MRD and MWR (R323). -/
structure XMove where
  acc : BitVec 3
  av : View
  mrow : BitVec 6
  mstep : Bool
  rstep : BitVec 3
deriving DecidableEq, Repr

/-- RD, WR, RDA and WRA (R103). -/
structure DCol where
  st : BitVec 2
  bk : BitVec 4
  col : BitVec 5
  step : BitVec 6
  spad : BitVec 14
  sstep : BitVec 8
deriving DecidableEq, Repr

/-- An N-class operand (R206). -/
inductive NOpnd where
  | row (v : View)
  | scalar (r : BitVec 6)
  | spad (r : BitVec 6)
  | none
deriving DecidableEq, Repr

/-- The first lane, the width code (0 to 4) and the steps of an N-class operation (R206). -/
structure NGrp where
  dir : Dir
  lane : BitVec 4
  width : BitVec 3
  rstep : BitVec 3
deriving DecidableEq, Repr

/-- The stamp term of a tap (R206, R213). -/
inductive Stamp where
  | abs (n : BitVec 16)
  | reg (k : BitVec 6) (n : BitVec 16)
  | age (n : BitVec 16)
deriving DecidableEq, Repr

/-- The operations of the bank atomic units (09 R160). -/
inductive AtOp where
  | add | fadd | min | max | minu | maxu | and | or | xor | xch | cas
deriving DecidableEq, Repr

/-- What an access of a peer module does (07 R125): a read of bytes, a write, or an atomic on a word of 4 or 8 bytes
with its operand and compare value. -/
inductive PeerOp where
  | read (len : Nat)
  | write (bytes : List Byte)
  | atomic (op : AtOp) (w64 : Bool) (x cmp : BitVec 64)
deriving DecidableEq, Repr

/-- An access that arrives from a peer module (07 R125). -/
structure PeerAcc where
  op : PeerOp
  /-- the tile that the access is attributed to, where it is one of a plot with tiles on this module too: the plot's
  number here and the tile's logical coordinates (09 R163); none for other work of the peer -/
  party : Option (Nat × Nat × Nat)
deriving DecidableEq, Repr

/-- A register or table that the policy core or the host writes, or reads, and that has no row of its own in the opcode
table (REGISTER_WRITE, R11). -/
inductive RegW where
  /-- EVEC of a tile, which only the tile monitor writes (R11, R22, R201) -/
  | evec (tile : Nat) (v : BitVec 64)
  /-- bytes of a tile's monitor store, which only the policy core writes (R435) -/
  | monitor (tile addr : Nat) (bytes : List Byte)
  /-- the policy core creates a context in a partition, with the save area's address (R442, R466) -/
  | context (ctx : Nat) (part : BitVec 3) (savePa : Nat)
  /-- PTROOT of a context (R117) -/
  | ptroot (ctx : Nat) (pa : BitVec 52)
  /-- the tile monitor has handled the fault record: VALID is cleared (R131) -/
  | faultClear (ctx : Nat)
  /-- module power limit in watts (R459) -/
  | powerLimit (w : Nat)
  /-- a lower power limit for a context, 0 for none (R460) -/
  | ctxPower (ctx w : Nat)
  /-- a lower power limit for a partition, 0 for none (R460) -/
  | partPower (part w : Nat)
  /-- floor pattern of a cluster (R461) -/
  | floor (cluster d : Nat)
  /-- a lower pattern limit of a cluster, 16 for none (R459) -/
  | clusterLimit (cluster d : Nat)
  /-- sampling interval of a partition in mp, 0 for off (R479) -/
  | sampling (part si : Nat)
  /-- event code of a partition counter (R481) -/
  | counter (part i : Nat) (code : BitVec 8)
  /-- address of a partition's counter block (R481) -/
  | counterBlock (part pa : Nat)
  /-- a selvage ring: base, log2 of its size in records, control granule (R478) -/
  | ring (r base n ctl : Nat)
  /-- the consumer's HEAD of a selvage ring (R478) -/
  | ringHead (r : Nat) (head : BitVec 64)
  /-- an inbound window for the plot group: base and size (R125) -/
  | inbound (i base size : Nat)
  /-- a CXL.mem decoder: base and size (R126) -/
  | hdm (i base size : Nat)
  /-- the plot group's size and the module's own index (R489) -/
  | group (cols rows m : Nat)
  /-- the host writes 32 bits of BAR0 at an offset (R483) -/
  | bar0 (offset : Nat) (v : BitVec 32)
  /-- the host reads the restart record through the policy core, or asks for an item of a context (R473, R474) -/
  | restartRead
  | restartItem (ctx item : Nat)
  /-- the host reads words of 32 bits of BAR0 from an offset on (R483) -/
  | bar0Read (offset words : Nat)
deriving DecidableEq, Repr

/-- What a command packet's header and place in its queue say (R410, R414). -/
structure Pkt where
  q : Nat
  /-- ring index of the packet's header -/
  seq : Nat
  irq : Bool
  bar : Bool
deriving DecidableEq, Repr

/-- What a link loses: it leaves STATE 2, or it loses its stream lane alone (30 R490). -/
inductive LinkDrop where
  | down (link : Nat)
  | lane (link : Nat)
deriving DecidableEq, Repr

/-- A cabled link as step 7 of a start finds it (R486): the partner, the one-way flight time in ps, and whether the
training fails whatever the time. -/
structure LinkRun where
  link : Nat
  peerMod : Nat
  peerLink : Nat
  flightPs : Nat
  bad : Bool
deriving DecidableEq, Repr

/-- What a start of the module meets at each of the steps 1 to 8 of R494, the tests of step 4, and the links of step 7. -/
structure StartRun where
  /-- bit i - 1 set: step i fails in this start -/
  fails : BitVec 8
  /-- tiles that fail the tests of step 4 -/
  badTiles : List Nat
  /-- vector-file banks that fail the tests of step 4: tile and bank, 0 to 11 (R197) -/
  badBanks : List (Nat × Nat)
  links : List LinkRun
  /-- words of the monitor-store image that step 5 loads into every tile, unlisted 0 (27 R435) -/
  monitor : Store 32
  /-- the step in which the supply is lost, which is left begun; 0 for none (R495) -/
  cut : Nat
deriving DecidableEq, Repr

end Sys2Proof
end

