-- ==== Sys2Proof/Syntax.lean ====
section
/-! DEFINITION. The instructions and steps of the Trenus D48: one constructor of Instr for every row of the
opcode table. Rows of the nine slot classes carry the fields of their encoding (03 R59-R66), decoded; the rows
that are whole steps of the machine carry the agent they concern and what the outside supplies. -/
namespace Sys2Proof

/-- One constructor per row of spec/opcode_table.json: the operations of the slots in its order, then the other rows. -/
inductive Instr where
  -- C class (R342, R343)
  | br (off : BitVec 24)
  | brp (p : BitVec 4) (neg : Bool) (off : BitVec 19)
  | call (off : BitVec 24)
  | ret
  | jmps (a : BitVec 6) (link : Bool)
  | loop (cnt fin : BitVec 12)
  | loopv (a : BitVec 6) (fin : BitVec 12)
  | loops (dir : Dir) (lane ex : BitVec 4) (age : Age) (fin : BitVec 12)
  | leave
  | walkn (p w : BitVec 4) (sc : BScope)
  | align (target : BitVec 48)
  | hold (i : BitVec 6)
  | waita (a b : BitVec 6) (cmp : Cmp) (w64 hm : Bool) (h : BitVec 6) (off : BitVec 20)
  | bari (bar : BitVec 6) (sc : BScope) (arr : BitVec 16) (bedw bedh : BitVec 3) (b : BitVec 6)
  | bara (bar : BitVec 6)
  | barw (hm ph : Bool) (h bar : BitVec 6)
  | fence (sc : Scope)
  | trap (code : BitVec 16)
  | sysc (code : BitVec 16)
  | eret
  | lease (pulses : BitVec 5) (dur : BitVec 19) (cap : BitVec 20)
  | mark (a : BitVec 6) (tag : BitVec 16)
  | savept (item : BitVec 4) (a : BitVec 6)
  | ovl (page : BitVec 12) (frame : BitVec 5) (bar : BitVec 6)
  -- S class (R241, R242)
  | add (d a b : BitVec 6)
  | sub (d a b : BitVec 6)
  | mul (d a b : BitVec 6)
  | mulh (d a b : BitVec 6)
  | mulhu (d a b : BitVec 6)
  | and (d a b : BitVec 6)
  | or (d a b : BitVec 6)
  | xor (d a b : BitVec 6)
  | andn (d a b : BitVec 6)
  | shl (d a b : BitVec 6)
  | shr (d a b : BitVec 6)
  | sar (d a b : BitVec 6)
  | rol (d a b : BitVec 6)
  | min (d a b : BitVec 6)
  | max (d a b : BitVec 6)
  | minu (d a b : BitVec 6)
  | maxu (d a b : BitVec 6)
  | clz (d a : BitVec 6)
  | popc (d a : BitVec 6)
  | extb (d a b w : BitVec 6)
  | insb (d a b w : BitVec 6)
  | sel (d a b : BitVec 6) (p : BitVec 4)
  | addi (d a : BitVec 6) (i : BitVec 12)
  | andi (d a : BitVec 6) (i : BitVec 12)
  | ori (d a : BitVec 6) (i : BitVec 12)
  | xori (d a : BitVec 6) (i : BitVec 12)
  | shli (d a h : BitVec 6)
  | shri (d a h : BitVec 6)
  | sari (d a h : BitVec 6)
  | li (d : BitVec 6) (i : BitVec 32)
  | lih (d : BitVec 6) (i : BitVec 32)
  | cmpeq (d : BitVec 4) (a b : BitVec 6)
  | cmpne (d : BitVec 4) (a b : BitVec 6)
  | cmplt (d : BitVec 4) (a b : BitVec 6)
  | cmple (d : BitVec 4) (a b : BitVec 6)
  | cmpltu (d : BitVec 4) (a b : BitVec 6)
  | cmpleu (d : BitVec 4) (a b : BitVec 6)
  | cmpeqi (d : BitVec 4) (a : BitVec 6) (i : BitVec 12)
  | cmplti (d : BitVec 4) (a : BitVec 6) (i : BitVec 12)
  | pand (d a b : BitVec 4)
  | por (d a b : BitVec 4)
  | pxor (d a b : BitVec 4)
  | pnot (d a : BitVec 4)
  | movs (d : BitVec 6) (id : BitVec 12)
  | movt (a : BitVec 6) (id : BitVec 12)
  | movp (a b : BitVec 6)
  | movps (d : BitVec 6)
  | fadd (d a b : BitVec 6) (rm : Rm)
  | fsub (d a b : BitVec 6) (rm : Rm)
  | fmul (d a b : BitVec 6) (rm : Rm)
  | ffma (d a b x : BitVec 6) (rm : Rm)
  | fcmplt (d : BitVec 4) (a b : BitVec 6)
  | fcmpeq (d : BitVec 4) (a b : BitVec 6)
  | fcvti (d a : BitVec 6) (w64 uns sat : Bool) (rm : Rm)
  | fcvtf (d a : BitVec 6) (w64 uns : Bool) (rm : Rm)
  -- V class, vectors (R260-R278)
  | vadd (f : VArith)
  | vsub (f : VArith)
  | vmul (f : VArith)
  | vfma (f : VArith)
  | vmin (f : VBin)
  | vmax (f : VBin)
  | vabs (f : VUn)
  | vneg (f : VUn)
  | vand (f : VBin)
  | vor (f : VBin)
  | vxor (f : VBin)
  | vshl (f : VBin)
  | vshr (f : VBin)
  | vsar (f : VBin)
  | vsel (f : VBin)
  | vcmpeq (f : VBin)
  | vcmplt (f : VBin)
  | vcmple (f : VBin)
  | vmov (fmt : Fmt) (dst a : View) (rstep : BitVec 3)
  | vbcs (fmt : Fmt) (dst : View) (a : BitVec 6) (rstep : BitVec 3)
  | viota (fmt : Fmt) (dst : View) (a b : BitVec 6) (rstep : BitVec 3)
  | vmadw (fmt : Fmt) (sat : Bool) (sel : BitVec 3) (dst a b : View) (rstep : BitVec 3)
  | vmulh (f : VBin)
  | vcvt (f : VCvt)
  | vcvtef (f : VCvt)
  | vsacc (fmt : Fmt) (rm : Rm) (sat uni : Bool) (dst a b : View) (rstep : BitVec 3)
  | vrng (fmt : Fmt) (dst : View) (rstep : BitVec 3)
  | vrotr (f : VShift)
  | vrotc (f : VShift)
  | vbcr (f : VShift)
  | vbcc (f : VShift)
  | vredr (f : VRed)
  | vredc (f : VRed)
  | vshfr (f : VShift)
  | vshfc (f : VShift)
  | vtrn (fmt : Fmt) (dst a : View) (rstep : BitVec 3)
  | vpart (fmt : Fmt) (dst a : View) (b : BitVec 6) (rstep : BitVec 3)
  | vcnt (fmt : Fmt) (d : BitVec 6) (a : View) (rstep : BitVec 3)
  | vargm (fmt : Fmt) (mn : Bool) (d : BitVec 6) (a : View) (rstep : BitVec 3)
  -- V class, directions (R287, R288)
  | dnorm (fmt : Fmt) (g : Grp) (d : BitVec 6) (a : View) (rstep : BitVec 3)
  | dcvt (fmt : Fmt) (g : Grp) (dst : View) (a : BitVec 6) (rstep : BitVec 3)
  | ddot (f : DTri)
  | ddotn (f : DTri)
  | dscl (f : DPair)
  | dneg (f : DPair)
  | dadd (f : DTri)
  | dsub (f : DTri)
  | dmix (f : DTri)
  | dproj (f : DTri)
  | dsim (g : Grp) (dst : View) (a b : BitVec 6) (rstep : BitVec 3)
  | dzt (g : Grp) (p : BitVec 4) (a : BitVec 6) (rstep : BitVec 3)
  | dmov (f : DPair)
  | dgetn (f : DPair)
  | dsetn (f : DPair)
  -- F class (R279, R280)
  | frcp (f : FUn)
  | frsq (f : FUn)
  | fsqrt (f : FUn)
  | fexp2 (f : FUn)
  | flog2 (f : FUn)
  | fsin (f : FUn)
  | fcos (f : FUn)
  | ftanh (f : FUn)
  | fsigm (f : FUn)
  | fdiv (fmt : Fmt) (rm : Rm) (dst a b : View) (rstep : BitVec 3)
  | sdiv (f : SDiv)
  | sdivu (f : SDiv)
  | srem (f : SDiv)
  | sremu (f : SDiv)
  -- M class (R176, R177)
  | ldv (v : View) (m : MAddr)
  | stv (v : View) (m : MAddr)
  | lds (sx : Bool) (size : Size) (sb : BitVec 6) (m : MAddr)
  | sts (size : Size) (sb : BitVec 6) (m : MAddr)
  | ldg (v : View) (m : MAddr)
  | stg (v : View) (m : MAddr)
  | ldd (g : Grp) (d : BitVec 6) (m : MAddr)
  | std (g : Grp) (d : BitVec 6) (m : MAddr)
  | ldwb (h : Bool) (sb sc : BitVec 6) (m : MAddr)
  | aadd (w64 : Bool) (sb sc : BitVec 6) (m : MAddr)
  | afadd (w64 : Bool) (sb sc : BitVec 6) (m : MAddr)
  | amin (w64 : Bool) (sb sc : BitVec 6) (m : MAddr)
  | amax (w64 : Bool) (sb sc : BitVec 6) (m : MAddr)
  | aminu (w64 : Bool) (sb sc : BitVec 6) (m : MAddr)
  | amaxu (w64 : Bool) (sb sc : BitVec 6) (m : MAddr)
  | aand (w64 : Bool) (sb sc : BitVec 6) (m : MAddr)
  | aor (w64 : Bool) (sb sc : BitVec 6) (m : MAddr)
  | axor (w64 : Bool) (sb sc : BitVec 6) (m : MAddr)
  | axch (w64 : Bool) (sb sc : BitVec 6) (m : MAddr)
  | acas (w64 : Bool) (sb sc : BitVec 6) (m : MAddr)
  | aaddRem (w64 : Bool) (sb bar : BitVec 6) (m : MAddr)
  | afaddRem (w64 : Bool) (sb bar : BitVec 6) (m : MAddr)
  | aminRem (w64 : Bool) (sb bar : BitVec 6) (m : MAddr)
  | amaxRem (w64 : Bool) (sb bar : BitVec 6) (m : MAddr)
  | aminuRem (w64 : Bool) (sb bar : BitVec 6) (m : MAddr)
  | amaxuRem (w64 : Bool) (sb bar : BitVec 6) (m : MAddr)
  | aandRem (w64 : Bool) (sb bar : BitVec 6) (m : MAddr)
  | aorRem (w64 : Bool) (sb bar : BitVec 6) (m : MAddr)
  | axorRem (w64 : Bool) (sb bar : BitVec 6) (m : MAddr)
  | axchRem (w64 : Bool) (sb bar : BitVec 6) (m : MAddr)
  | acasRem (w64 : Bool) (sb bar : BitVec 6) (m : MAddr)
  | ldr (acq : Option Scope) (sb bar : BitVec 6) (m : MAddr)
  | str (rel : Option Scope) (sb bar : BitVec 6) (m : MAddr)
  | shcpy (sb : BitVec 6) (m : MAddr)
  | publ (bar : BitVec 6) (sc : Scope) (m : MAddr)
  | shcan (sa : BitVec 6) (rstep : BitVec 3)
  | shqry (sa sb : BitVec 6) (rstep : BitVec 3)
  -- X and K classes (R322-R324)
  | mma (f : XMma)
  | mmaz (f : XMma)
  | mseq (f : XSeq)
  | mzero (acc : BitVec 3) (i32 : Bool) (rstep : BitVec 3)
  | mrd (f : XMove)
  | mwr (f : XMove)
  | kset (bank side : Bool) (v : View) (rstep : Bool)
  | kone (bank : Bool)
  -- D class (R102, R103)
  | act (st : BitVec 2) (bk : BitVec 4) (row : BitVec 12) (step : BitVec 6)
  | rd (f : DCol)
  | wr (f : DCol)
  | rda (f : DCol)
  | wra (f : DCol)
  | pre (st : BitVec 2) (bk : BitVec 4) (step : BitVec 6)
  | prea (st : BitVec 2)
  | ref (st : BitVec 2)
  | refb (st : BitVec 2) (bk : BitVec 4) (step : BitVec 6)
  -- N class (R206, R207)
  | sdrv (g : NGrp) (o : NOpnd)
  | stap (g : NGrp) (o : NOpnd) (st : Stamp)
  | sfwd (g : NGrp) (o : NOpnd) (st : Stamp) (odir : Dir) (olane : BitVec 4)
  | seos (g : NGrp)
  | sred (g : NGrp) (o : NOpnd) (st : Stamp) (odir : Dir) (olane : BitVec 4) (rfmt : BitVec 2)
  -- steps of the machine that are not operations of a slot
  -- issue and landing
  | bundleIssue (tile : Nat)
  | exposedResultLands (tile : Nat)
  | ovlLoadComplete (tile : Nat)
  | ldwbComplete (tile : Nat)
  | mmaPass1Start (tile : Nat)
  | mmaResultReady (tile : Nat)
  | mseqStepStart (tile : Nat)
  -- events of the vault
  | vaultLanding (tile : Nat)
  | wrSample (tile : Nat)
  | prechargePoint (tile bank : Nat)
  | refreshComplete (tile bank : Nat)
  | drefl (tile : Nat)
  | mpRefreshDeadline (tile bank : Nat)
  | bandChange (cluster celsius : Nat)
  | refreshGuardRefresh (tile bank : Nat)
  -- dynamic work, Shuttle and barriers
  | sidePortServe (tile id : Nat)
  | dynamicAccessEnd (tile id : Nat)
  | pageWalkComplete (die : Nat)
  | replicaCommit (tile id : Nat)
  | publishSwap (ctx : Nat)
  | shuttleBeatIssue (cluster : Nat)
  | shuttleBeatComplete (cluster : Nat)
  | barrierPhaseComplete (tile bar : Nat)
  | barrierCompletionSeen (tile bar : Nat)
  | barwResume (tile : Nat)
  | waitaReadReturn (tile : Nat)
  | streamValueArrives (tile : Nat) (dir : Dir) (lane : BitVec 4) (data : BitVec 256) (stamp : BitVec 16) (eos : Bool)
  -- plots
  | holdRelease (plot : Nat)
  | holdto (tile : Nat)
  | plotOverdue (plot : Nat)
  | plotStopArrival (tile : Nat)
  | preemptRequest (plot : Nat) (sub : BitVec 8)
  | forcedStop (plot : Nat)
  | plotResume (plot x0 y0 : Nat)
  | retentionEntry (cluster : Nat)
  | plotArming (plot x0 y0 : Nat)
  | startPulse (plot : Nat)
  | tileFreed (tile : Nat)
  -- queues
  | doorbell (q : Nat) (v : BitVec 32)
  | ringRead (q : Nat)
  | queueEnable (q : Nat) (d : BitVec 512)
  | launch (p : Pkt) (desc rec : BitVec 64)
  | copy (p : Pkt) (desc rec : BitVec 64)
  | signal (p : Pkt) (va val : BitVec 64) (w64 add : Bool)
  | wait (p : Pkt) (va val : BitVec 64) (w64 : Bool) (cmp : Cmp) (timeout : BitVec 32)
  | waitSatisfied (q : Nat)
  | waitTimeout (q : Nat)
  | callib (p : Pkt) (va : BitVec 64) (len : BitVec 32)
  | retib (p : Pkt)
  | graph (p : Pkt) (base : BitVec 64) (cap count : BitVec 16) (rec : BitVec 64)
  | fencek (p : Pkt)
  | markk (p : Pkt) (tag : BitVec 32)
  | graphNodeComplete (q node : Nat)
  | timedNodeOffset (q node : Nat)
  | queuePatienceExpiry (q : Nat)
  | irqAgeExpiry (q : Nat)
  | queueReset (q : Nat)
  | queueResetComplete (q : Nat)
  -- power
  | patternChange (cluster allot : Nat)
  | splitChange (plot : Nat) (level : BitVec 2)
  | droop (die : Nat)
  | droopFloorEnd (die : Nat)
  | leaseGrant (plot : Nat)
  | leaseDeny (plot : Nat) (reason : BitVec 4)
  | leaseDurExpiry (plot : Nat)
  | leaseCapReached (plot : Nat)
  | supplyLoss
  | pfailArrival (plot : Nat)
  | pfailHoldTimeout (plot : Nat)
  | keepStoreSave
  -- observation, links, start, policy core, host
  | pcSample (tile : Nat)
  | counterSnapshot (part : Nat)
  | linkTraining (link peerMod peerLink flightPs rate : Nat)
  | linkLoss (drop : LinkDrop)
  | moduleStart (run : StartRun)
  | spdmRequest (index : Nat)
  | manifestRead (first : Nat)
  | rangeEntryInstall (ctx i : Nat) (e : BitVec 256)
  | translationInvalidate (ctx : Nat)
  | pageMigration (ctx : Nat) (va : BitVec 64) (newPa : Nat)
  | pageMigrationCopyDone (ctx : Nat)
  | serviceMarkingChange (tile : Nat) (strata : BitVec 4)
  | hostCxlMemRead (pa len : Nat)
  | hostCxlMemWrite (pa : Nat) (bytes : List Byte)
  | peerAccessArrival (pa : Nat) (acc : PeerAcc)
  | registerWrite (r : RegW)
  | staticPortAccess (tile : Nat)
  | retentionExit (cluster : Nat) (parityOk : Bool)
deriving DecidableEq, Repr

end Sys2Proof
end

