-- ==== Sys2Proof/WellFormed.lean ====
section
/-! DEFINITION. Which instructions have an encoding: the limits that 02 R47-R48 and the class chapters put on the
fields of an operation word, beyond the widths that the types of Sys2Proof.Syntax already give them. -/
namespace Sys2Proof

/-- A row view in the panels of CAPS (R48). -/
def View.inPanels (panels : Nat) : View → Bool
  | .row r => r.toNat < 16 * panels
  | .col p _ => p.toNat < panels
  | .diag p _ => p.toNat < panels
  | .spec _ => true

/-- A legal source view (R48). -/
def View.srcOk (panels : Nat) (v : View) : Bool := v.inPanels panels

/-- A legal destination view (R48): a special view is a source only. -/
def View.dstOk (panels : Nat) : View → Bool
  | .spec _ => false
  | v => v.inPanels panels

/-- A barrier number (R47). -/
def barrierOk (b : BitVec 6) : Bool := b.toNat < 48

/-- The number of registers of a direction group (R61). -/
def Grp.size : Grp → Nat
  | .g1 => 1 | .g2 => 2 | .g4 => 4 | .g8 => 8 | .g16 => 16 | .g32 => 32

/-- A direction operand stands at a multiple of its group (R61, R289). -/
def Grp.aligned (g : Grp) (d : BitVec 6) : Bool := d.toNat % g.size = 0

/-- Integer formats of the vector class (R255, IN). -/
def Fmt.isIn : Fmt → Bool
  | .i8 | .u8 | .i16 | .i32 | .u32 => true
  | _ => false

/-- Binary floating formats of the vector class (R255, FL). -/
def Fmt.isFl : Fmt → Bool
  | .f32 | .bf16 | .f16 => true
  | _ => false

/-- The bit-plane codes 13 to 19. -/
def Fmt.isBp : Fmt → Bool
  | .bp2 | .bp3 | .bp4 | .bp5 | .bp6 | .bp7 | .bp8 => true
  | _ => false

/-- The step bit of the third, second or first operand (R57) is clear. -/
def noStep (r : BitVec 3) (k : Nat) : Bool := !r.getLsbD k

/-- A scalar operand under R56 in an amount field (R272). -/
def Amt.stepOk (r : BitVec 3) : Amt → Bool
  | .imm _ => noStep r 0
  | .reg _ => true

/-- The hold-table index of a form without the hold modifier is zero (R343, R55). -/
def holdIdxOk (hm : Bool) (h : BitVec 6) : Bool := hm || h == 0

/-- The ids that name a special register (R201). -/
def specialId (id : BitVec 12) : Bool :=
  let n := id.toNat
  n ≤ 6 || n == 8 || n == 9 || (0x10 ≤ n && n ≤ 0x14) || (0x20 ≤ n && n ≤ 0x24) || (0x30 ≤ n && n ≤ 0x36) ||
  n == 0x40 || n == 0x41 || (0x50 ≤ n && n ≤ 0x53) || n == 0x60 || n == 0x61 || (0x100 ≤ n && n ≤ 0x147)

/-- Operand kinds an N-class operation takes (R206). -/
inductive NKind where
  | row | scalar | spad | none
deriving DecidableEq, Repr

def NOpnd.kind : NOpnd → NKind
  | .row _ => .row
  | .scalar _ => .scalar
  | .spad _ => .spad
  | .none => .none

def NOpnd.viewOk (panels : Nat) (dst : Bool) : NOpnd → Bool
  | .row v => if dst then v.dstOk panels else v.srcOk panels
  | _ => true

/-- The group and step fields of an N-class operation (R206). -/
def NGrp.ok (g : NGrp) (o : NOpnd) : Bool :=
  g.width.toNat ≤ 4 && noStep g.rstep 0 && (o != .none || noStep g.rstep 1)

def VArith.ok (panels : Nat) (f : VArith) : Bool :=
  f.dst.dstOk panels && f.a.srcOk panels && f.b.srcOk panels
def VBin.ok (panels : Nat) (f : VBin) : Bool :=
  f.dst.dstOk panels && f.a.srcOk panels && f.b.srcOk panels
def VUn.ok (panels : Nat) (f : VUn) : Bool :=
  f.dst.dstOk panels && f.a.srcOk panels && noStep f.rstep 0
def VCvt.ok (panels : Nat) (f : VCvt) : Bool :=
  f.dst.dstOk panels && f.a.srcOk panels && noStep f.rstep 0
def VShift.ok (panels : Nat) (f : VShift) : Bool :=
  f.dst.dstOk panels && f.a.srcOk panels && f.amt.stepOk f.rstep
def VRed.ok (panels : Nat) (f : VRed) : Bool :=
  f.dst.dstOk panels && f.a.srcOk panels && noStep f.rstep 0
def DTri.ok (f : DTri) : Bool := f.g.aligned f.d && f.g.aligned f.a && f.g.aligned f.b
def FUn.ok (panels : Nat) (f : FUn) : Bool :=
  f.dst.dstOk panels && f.a.srcOk panels && noStep f.rstep 0
def XMma.ok (panels : Nat) (f : XMma) : Bool := f.av.srcOk panels && noStep f.rstep 0
def DCol.ok (f : DCol) : Bool := f.spad.toNat < 12288
def remOk (bar : BitVec 6) : Bool := barrierOk bar

/-- An instruction that has an encoding and whose encoding raises no UNDEF by itself, on a tile whose CAPS
reports the given panels. Rows that are steps of the machine have no encoding and are well formed. -/
def wellFormed (panels : Nat) : Instr → Bool
  | .barw hm _ h bar => holdIdxOk hm h && barrierOk bar
  | .waita _ _ _ _ hm h _ => holdIdxOk hm h
  | .bari bar _ _ bedw bedh _ => barrierOk bar && bedw.toNat ≤ 5 && bedh.toNat ≤ 4
  | .bara bar => barrierOk bar
  | .lease pulses _ _ => 1 ≤ pulses.toNat && pulses.toNat ≤ 16
  | .ovl _ _ bar => barrierOk bar
  | .vadd f | .vsub f | .vmul f => f.ok panels && (!f.fmt.isIn || f.rm == .rne)
  | .vfma f => f.ok panels
  | .vmin f | .vmax f | .vand f | .vor f | .vxor f | .vshl f | .vshr f | .vsar f
  | .vsel f | .vcmpeq f | .vcmplt f | .vcmple f | .vmulh f => f.ok panels
  | .vabs f | .vneg f => f.ok panels
  | .vmov _ dst a r => dst.dstOk panels && a.srcOk panels && noStep r 0
  | .vbcs _ dst _ r => dst.dstOk panels && noStep r 0
  | .viota _ dst _ _ _ => dst.dstOk panels
  | .vmadw _ _ _ dst a b _ => dst.dstOk panels && a.srcOk panels && b.srcOk panels
  | .vcvt f | .vcvtef f => f.ok panels
  | .vsacc _ _ _ _ dst a b _ => dst.dstOk panels && a.srcOk panels && b.srcOk panels
  | .vrng _ dst r => dst.dstOk panels && noStep r 0 && noStep r 1
  | .vrotr f | .vrotc f | .vbcr f | .vbcc f | .vshfr f | .vshfc f => f.ok panels
  | .vredr f | .vredc f => f.ok panels
  | .vtrn _ dst a r => dst.dstOk panels && a.srcOk panels && noStep r 0
  | .vpart _ dst a b _ => dst.dstOk panels && a.srcOk panels && b.toNat ≤ 62
  | .vcnt _ _ a r => a.srcOk panels && noStep r 0
  | .vargm _ _ _ a r => a.srcOk panels && noStep r 0
  | .dnorm _ g d a r => g.aligned d && a.srcOk panels && noStep r 0
  | .dcvt _ g dst a r => g.aligned a && dst.dstOk panels && noStep r 0
  | .ddot f | .ddotn f => f.g.aligned f.a && f.g.aligned f.b
  | .dscl f => f.g.aligned f.d && noStep f.rstep 0
  | .dneg f | .dmov f => f.g.aligned f.d && f.g.aligned f.a && noStep f.rstep 0
  | .dadd f | .dsub f | .dproj f => f.ok
  | .dmix f => f.g.aligned f.d && f.g.aligned f.a
  | .dsim g dst a b _ => g.aligned a && g.aligned b && dst.dstOk panels
  | .dzt g _ a r => g.aligned a && noStep r 0
  | .dgetn f => f.g.aligned f.a && noStep f.rstep 0
  | .dsetn f => f.g.aligned f.d && noStep f.rstep 0
  | .frcp f | .frsq f | .fsqrt f | .fexp2 f | .flog2 f | .fsin f | .fcos f | .ftanh f | .fsigm f => f.ok panels
  | .fdiv _ _ dst a b _ => dst.dstOk panels && a.srcOk panels && b.srcOk panels
  | .ldv v m => v.dstOk panels && noStep m.rstep 0
  | .ldg v m => v.dstOk panels && noStep m.rstep 0
  | .stv v m | .stg v m => v.srcOk panels && noStep m.rstep 0
  | .lds _ _ _ m | .sts _ _ m => noStep m.rstep 0
  | .ldd g d m | .std g d m => g.aligned d && noStep m.rstep 0
  | .aaddRem _ _ bar _ | .afaddRem _ _ bar _ | .aminRem _ _ bar _ | .amaxRem _ _ bar _ | .aminuRem _ _ bar _
  | .amaxuRem _ _ bar _ | .aandRem _ _ bar _ | .aorRem _ _ bar _ | .axorRem _ _ bar _ | .axchRem _ _ bar _
  | .acasRem _ _ bar _ => remOk bar
  | .ldr _ _ bar _ | .str _ _ bar _ => barrierOk bar
  | .shcpy _ m => noStep m.rstep 0
  | .publ bar _ m => barrierOk bar && noStep m.rstep 0
  | .shcan _ r => noStep r 0 && noStep r 1
  | .shqry _ _ r => noStep r 0
  | .mma f | .mmaz f => f.ok panels
  | .mseq f => f.av.srcOk panels && noStep f.rstep 0
  | .mzero _ _ r => noStep r 0 && noStep r 1
  | .mrd f => f.av.dstOk panels && noStep f.rstep 0
  | .mwr f => f.av.srcOk panels && noStep f.rstep 0
  | .kset _ _ v _ => v.srcOk panels
  | .rd f | .wr f | .rda f | .wra f => f.ok
  | .sdrv g o => g.ok o && o.kind != .none && o.viewOk panels false
  | .stap g o _ => g.ok o && o.viewOk panels true
  | .sfwd g o st _ _ => g.ok o && o.kind != .scalar && o.viewOk panels true &&
      (match st with | .reg _ _ => false | _ => true)
  | .seos g => g.ok .none
  | .sred g o st _ _ rfmt => g.ok o && (o.kind == .row || o.kind == .spad) && o.viewOk panels false &&
      (match st with | .reg _ _ => false | _ => true) && rfmt.toNat < 3
  | .bundleIssue _ | .exposedResultLands _ | .br _ | .brp _ _ _ | .call _ | .ret | .jmps _ _ | .loop _ _
  | .loopv _ _ | .loops _ _ _ _ _ | .leave | .walkn _ _ _ | .align _ | .hold _ | .fence _ | .trap _ | .sysc _
  | .eret | .mark _ _ | .savept _ _ | .ovlLoadComplete _ => true
  | .add _ _ _ | .sub _ _ _ | .mul _ _ _ | .mulh _ _ _ | .mulhu _ _ _ | .and _ _ _ | .or _ _ _ | .xor _ _ _
  | .andn _ _ _ | .shl _ _ _ | .shr _ _ _ | .sar _ _ _ | .rol _ _ _ | .min _ _ _ | .max _ _ _ | .minu _ _ _
  | .maxu _ _ _ | .clz _ _ | .popc _ _ | .extb _ _ _ _ | .insb _ _ _ _ | .sel _ _ _ _ | .addi _ _ _
  | .andi _ _ _ | .ori _ _ _ | .xori _ _ _ | .shli _ _ _ | .shri _ _ _ | .sari _ _ _ | .li _ _ | .lih _ _
  | .cmpeq _ _ _ | .cmpne _ _ _ | .cmplt _ _ _ | .cmple _ _ _ | .cmpltu _ _ _ | .cmpleu _ _ _ | .cmpeqi _ _ _
  | .cmplti _ _ _ | .pand _ _ _ | .por _ _ _ | .pxor _ _ _ | .pnot _ _ | .movp _ _ | .movps _
  | .fadd _ _ _ _ | .fsub _ _ _ _ | .fmul _ _ _ _ | .ffma _ _ _ _ _ | .fcmplt _ _ _ | .fcmpeq _ _ _
  | .fcvti _ _ _ _ _ _ | .fcvtf _ _ _ _ _ => true
  | .movs _ id | .movt _ id => specialId id
  | .sdiv _ | .sdivu _ | .srem _ | .sremu _ => true
  | .ldwb _ _ _ _ | .ldwbComplete _ => true
  | .aadd _ _ _ _ | .afadd _ _ _ _ | .amin _ _ _ _ | .amax _ _ _ _ | .aminu _ _ _ _ | .amaxu _ _ _ _
  | .aand _ _ _ _ | .aor _ _ _ _ | .axor _ _ _ _ | .axch _ _ _ _ | .acas _ _ _ _ => true
  | .mmaPass1Start _ | .mmaResultReady _ | .mseqStepStart _ | .kone _ => true
  | .act _ _ _ _ | .pre _ _ _ | .prea _ | .ref _ | .refb _ _ _ => true
  | .vaultLanding _ | .wrSample _ | .prechargePoint _ _ | .refreshComplete _ _ | .drefl _ | .mpRefreshDeadline _ _
  | .bandChange _ _ | .refreshGuardRefresh _ _ | .sidePortServe _ _ | .dynamicAccessEnd _ _ | .pageWalkComplete _
  | .replicaCommit _ _ | .publishSwap _ | .shuttleBeatIssue _ | .shuttleBeatComplete _ | .barrierPhaseComplete _ _
  | .barrierCompletionSeen _ _ | .barwResume _ | .waitaReadReturn _ | .streamValueArrives _ _ _ _ _ _
  | .holdRelease _ | .holdto _ | .plotOverdue _ | .plotStopArrival _ | .preemptRequest _ _ | .forcedStop _
  | .plotResume _ _ _ | .retentionEntry _ | .plotArming _ _ _ | .startPulse _ | .tileFreed _ | .doorbell _ _
  | .ringRead _ | .queueEnable _ _ | .launch _ _ _ | .copy _ _ _ | .signal _ _ _ _ _ | .wait _ _ _ _ _ _
  | .waitSatisfied _ | .waitTimeout _ | .callib _ _ _ | .retib _ | .graph _ _ _ _ _ | .fencek _ | .markk _ _
  | .graphNodeComplete _ _ | .timedNodeOffset _ _ | .queuePatienceExpiry _ | .irqAgeExpiry _ | .queueReset _
  | .queueResetComplete _ | .patternChange _ _ | .splitChange _ _ | .droop _ | .droopFloorEnd _ | .leaseGrant _
  | .leaseDeny _ _ | .leaseDurExpiry _ | .leaseCapReached _ | .supplyLoss | .pfailArrival _ | .pfailHoldTimeout _
  | .keepStoreSave | .pcSample _ | .counterSnapshot _ | .linkTraining _ _ _ _ _ | .linkLoss _ | .moduleStart _
  | .spdmRequest _ | .manifestRead _ | .rangeEntryInstall _ _ _ | .translationInvalidate _ | .pageMigration _ _ _
  | .pageMigrationCopyDone _ | .serviceMarkingChange _ _ | .hostCxlMemRead _ _ | .hostCxlMemWrite _ _
  | .peerAccessArrival _ _ | .registerWrite _ | .staticPortAccess _ | .retentionExit _ _ => true

end Sys2Proof
end

