-- ==== Sys2Proof/Decode.lean ====
section
/-! DEFINITION. Reading operation words (02 R29-R48, 03 R55-R75): the decoder, total on any words, refusing by the
lowest UNDEF reason of R75, and after it the encoder, written from the same tables. -/
namespace Sys2Proof

/-! ### Fields -/

/-- Bits lo + n - 1 to lo of a word, as a number. -/
def fld (w : Word32) (lo n : Nat) : Nat := w.toNat / 2 ^ lo % 2 ^ n

/-- Bits lo + n - 1 to lo of a word. -/
def bits (w : Word32) (lo n : Nat) : BitVec n := BitVec.ofNat n (w.toNat / 2 ^ lo)

/-- One bit of a word. -/
def flag (w : Word32) (k : Nat) : Bool := fld w k 1 == 1

/-- Conditions that hold, each with its REASON of R75: the lowest one. -/
def lowest : List (Bool × Nat) → Option Nat
  | [] => none
  | (false, _) :: r => lowest r
  | (true, n) :: r => some ((lowest r).elim n (fun m => if n ≤ m then n else m))

/-- An operation whose conditions of R74 are listed: refused with the lowest reason, or the operation. -/
def opUnless (cs : List (Bool × Nat)) (i : Instr) : Except Nat Instr :=
  match lowest cs with
  | some n => .error n
  | none => .ok i

/-- A field that must be zero (R55): REASON 0x1. -/
def zero (n : Nat) : Bool × Nat := (n != 0, 1)
/-- A step bit for an absent operand (R57): REASON 0x7. -/
def noBit (w : Word32) (k : Nat) : Bool × Nat := (flag w k, 7)
/-- A register under R56 in a 14-bit field: bits [13:6] must be zero. -/
def reg56 (x : Nat) : Bool × Nat := (x / 64 != 0, 1)
/-- A barrier number (R47): REASON 0x2. -/
def badBar (x : Nat) : Bool × Nat := (48 ≤ x % 64, 2)

/-- The view a 14-bit operand field selects (R48). -/
def viewOf (x : Nat) : View :=
  match x / 4096 % 4 with
  | 0 => .row (BitVec.ofNat 10 x)
  | 1 => .col (BitVec.ofNat 6 (x / 64)) (BitVec.ofNat 6 x)
  | 2 => .diag (BitVec.ofNat 6 (x / 64)) (BitVec.ofNat 6 x)
  | _ => .spec (BitVec.ofNat 6 x)

/-- The conditions of R48 on a source view field. -/
def srcBad (panels x : Nat) : List (Bool × Nat) :=
  [(x / 4096 % 4 == 0 && x / 1024 % 4 != 0, 1), (x / 4096 % 4 == 3 && x / 64 % 64 != 0, 2),
   (!(viewOf x).srcOk panels, 2)]
/-- The conditions of R48 on a destination view field. -/
def dstBad (panels x : Nat) : List (Bool × Nat) :=
  [(x / 4096 % 4 == 0 && x / 1024 % 4 != 0, 1), (!(viewOf x).dstOk panels, 2)]

/-- The format of a format code (R216). -/
def fmtOf : Nat → Option Fmt
  | 0 => some .f32 | 1 => some .bf16 | 2 => some .f16 | 3 => some .e5m2 | 4 => some .e4m3 | 5 => some .e3m2
  | 6 => some .e2m3 | 7 => some .e2m1 | 8 => some .i8 | 9 => some .u8 | 10 => some .i4 | 11 => some .u4
  | 12 => some .i16 | 13 => some .bp2 | 14 => some .bp3 | 15 => some .bp4 | 16 => some .bp5 | 17 => some .bp6
  | 18 => some .bp7 | 19 => some .bp8 | 20 => some .i32 | 21 => some .u32 | 22 => some .q15 | 24 => some .e8m0
  | _ => none
def fmtGet (n : Nat) : Fmt := (fmtOf n).getD .f32
/-- A reserved format code (R74): REASON 0x3. -/
def badFmt (n : Nat) : Bool × Nat := ((fmtOf n).isNone, 3)

/-- The format code of a format (R216). -/
def Fmt.code : Fmt → Nat
  | .f32 => 0 | .bf16 => 1 | .f16 => 2 | .e5m2 => 3 | .e4m3 => 4 | .e3m2 => 5 | .e2m3 => 6 | .e2m1 => 7 | .i8 => 8
  | .u8 => 9 | .i4 => 10 | .u4 => 11 | .i16 => 12 | .bp2 => 13 | .bp3 => 14 | .bp4 => 15 | .bp5 => 16 | .bp6 => 17
  | .bp7 => 18 | .bp8 => 19 | .i32 => 20 | .u32 => 21 | .q15 => 22 | .e8m0 => 24

/-- The rounding mode of a code (R225). -/
def rmOf : Nat → Option Rm
  | 0 => some .rne | 1 => some .rz | 2 => some .ru | 3 => some .rd | 4 => some .rna | 5 => some .sr
  | 6 => some .dyn | _ => none
def rmGet (n : Nat) : Rm := (rmOf n).getD .rne
/-- Rounding code 7 (R225): REASON 0x1. -/
def badRm (n : Nat) : Bool × Nat := ((rmOf n).isNone, 1)
def Rm.code : Rm → Nat
  | .rne => 0 | .rz => 1 | .ru => 2 | .rd => 3 | .rna => 4 | .sr => 5 | .dyn => 6

def dirOf : Nat → Dir
  | 0 => .east | 1 => .west | 2 => .north | _ => .south
def Dir.code : Dir → Nat
  | .east => 0 | .west => 1 | .north => 2 | .south => 3

def scopeOf : Nat → Option Scope
  | 0 => some .tile | 1 => some .bed | 2 => some .plot | 3 => some .device | 4 => some .system | _ => none
def scopeGet (n : Nat) : Scope := (scopeOf n).getD .tile
def badScope (n : Nat) : Bool × Nat := ((scopeOf n).isNone, 1)
def Scope.code : Scope → Nat
  | .tile => 0 | .bed => 1 | .plot => 2 | .device => 3 | .system => 4

def bscopeOf : Nat → Option BScope
  | 0 => some .tile | 1 => some .bed | 2 => some .plot | _ => none
def bscopeGet (n : Nat) : BScope := (bscopeOf n).getD .tile
def BScope.code : BScope → Nat
  | .tile => 0 | .bed => 1 | .plot => 2

def cmpOf : Nat → Cmp
  | 0 => .eq | 1 => .ne | 2 => .ge | _ => .lt
def Cmp.code : Cmp → Nat
  | .eq => 0 | .ne => 1 | .ge => 2 | .lt => 3

def ageOf : Nat → Option Age
  | 0 => some .h1 | 1 => some .h5 | 2 => some .h640 | _ => none
def Age.code : Age → Nat
  | .h1 => 0 | .h5 => 1 | .h640 => 2

def grpOf : Nat → Option Grp
  | 0 => some .g1 | 1 => some .g2 | 2 => some .g4 | 3 => some .g8 | 4 => some .g16 | 5 => some .g32 | _ => none
def grpGet (n : Nat) : Grp := (grpOf n).getD .g1
def Grp.code : Grp → Nat
  | .g1 => 0 | .g2 => 1 | .g4 => 2 | .g8 => 3 | .g16 => 4 | .g32 => 5
/-- A direction operand that is not a multiple of its group (R61, R289): REASON 0x2. -/
def badDir (g : Grp) (x : Nat) : Bool × Nat := (!g.aligned (BitVec.ofNat 6 x), 2)

def redOf : Nat → Option Red
  | 0 => some .sum | 1 => some .max | 2 => some .min | _ => none
def Red.code : Red → Nat
  | .sum => 0 | .max => 1 | .min => 2

def dmodeOf : Nat → Option DMode
  | 0 => some .none | 1 => some .s24 | 2 => some .bpl | _ => none
def DMode.code : DMode → Nat
  | .none => 0 | .s24 => 1 | .bpl => 2
def sclOf : Nat → Option Scl
  | 0 => some .none | 1 => some .l0 | 2 => some .l1 | _ => none
def Scl.code : Scl → Nat
  | .none => 0 | .l0 => 1 | .l1 => 2

def sizeOf' : Nat → Size
  | 0 => .b8 | 1 => .b16 | 2 => .b32 | _ => .b64
def Size.code : Size → Nat
  | .b8 => 0 | .b16 => 1 | .b32 => 2 | .b64 => 3

/-- The amount field of R272. -/
def amtOf (x : Nat) : Amt :=
  if x / 4096 % 4 = 0 then .imm (BitVec.ofNat 7 x) else .reg (BitVec.ofNat 6 x)
def amtBad (x : Nat) (w2 : Word32) : List (Bool × Nat) :=
  [(x / 4096 % 4 == 1 || x / 4096 % 4 == 2, 1), (x / 4096 % 4 == 0 && x / 128 % 32 != 0, 1),
   (x / 4096 % 4 == 3 && x / 64 % 64 != 0, 1), (x / 4096 % 4 == 0 && flag w2 0, 7)]

/-- The number of words of an operation (R67-R73). -/
def opWords : Cls → Nat → Nat
  | .c, o => if o == 0x10 || o == 0x12 || o == 0x13 || o == 0x20 then 2 else 1
  | .s, o => if o == 0x20 || o == 0x21 || o == 0x3B then 2 else 1
  | .d, o => if 2 ≤ o && o ≤ 5 then 2 else 1
  | .k, _ => 1
  | _, _ => 2

/-! ### The decoder, class by class -/

/-- The C class (R67, R343, R344). -/
def decodeC (w1 w2 : Word32) : Except Nat Instr :=
  match fld w1 24 7 with
  | 0x01 => .ok (.br (bits w1 0 24))
  | 0x02 => .ok (.brp (bits w1 20 4) (flag w1 19) (bits w1 0 19))
  | 0x03 => .ok (.call (bits w1 0 24))
  | 0x04 => opUnless [zero (fld w1 0 24)] .ret
  | 0x05 => opUnless [zero (fld w1 0 17)] (.jmps (bits w1 18 6) (flag w1 17))
  | 0x08 => .ok (.loop (bits w1 12 12) (bits w1 0 12))
  | 0x09 => opUnless [zero (fld w1 12 6)] (.loopv (bits w1 18 6) (bits w1 0 12))
  | 0x0A => opUnless [((ageOf (fld w1 12 2)).isNone, 1)]
      (.loops (dirOf (fld w1 22 2)) (bits w1 18 4) (bits w1 14 4) ((ageOf (fld w1 12 2)).getD .h1) (bits w1 0 12))
  | 0x0B => opUnless [zero (fld w1 0 24)] .leave
  | 0x0C => opUnless [zero (fld w1 0 14), ((bscopeOf (fld w1 14 2)).isNone, 1)]
      (.walkn (bits w1 20 4) (bits w1 16 4) (bscopeGet (fld w1 14 2)))
  | 0x10 => opUnless [zero (fld w1 17 7)] (.align (BitVec.ofNat 48 (fld w1 0 17 * 2 ^ 31 + fld w2 0 31)))
  | 0x11 => opUnless [zero (fld w1 6 18)] (.hold (bits w1 0 6))
  | 0x12 => opUnless [zero (fld w1 0 2), zero (fld w2 0 11), (!flag w1 8 && fld w1 2 6 != 0, 1)]
      (.waita (bits w1 18 6) (bits w1 12 6) (cmpOf (fld w1 10 2)) (flag w1 9) (flag w1 8) (bits w1 2 6) (bits w2 11 20))
  | 0x13 => opUnless [zero (fld w2 0 19), badBar (fld w1 18 6), ((bscopeOf (fld w1 16 2)).isNone, 1),
        (5 < fld w2 28 3, 1), (4 < fld w2 25 3, 1)]
      (.bari (bits w1 18 6) (bscopeGet (fld w1 16 2)) (bits w1 0 16) (bits w2 28 3) (bits w2 25 3) (bits w2 19 6))
  | 0x14 => opUnless [zero (fld w1 6 18), badBar (fld w1 0 6)] (.bara (bits w1 0 6))
  | 0x15 => opUnless [zero (fld w1 6 10), (!flag w1 23 && fld w1 16 6 != 0, 1), badBar (fld w1 0 6)]
      (.barw (flag w1 23) (flag w1 22) (bits w1 16 6) (bits w1 0 6))
  | 0x16 => opUnless [zero (fld w1 3 21), badScope (fld w1 0 3)] (.fence (scopeGet (fld w1 0 3)))
  | 0x18 => opUnless [zero (fld w1 16 8)] (.trap (bits w1 0 16))
  | 0x19 => opUnless [zero (fld w1 16 8)] (.sysc (bits w1 0 16))
  | 0x1A => opUnless [zero (fld w1 0 24)] .eret
  | 0x20 => opUnless [zero (fld w2 0 11), (fld w1 19 5 == 0 || 16 < fld w1 19 5, 1)]
      (.lease (bits w1 19 5) (bits w1 0 19) (bits w2 11 20))
  | 0x21 => opUnless [zero (fld w1 16 2)] (.mark (bits w1 18 6) (bits w1 0 16))
  | 0x22 => opUnless [zero (fld w1 18 2), zero (fld w1 0 12)] (.savept (bits w1 20 4) (bits w1 12 6))
  | 0x23 => opUnless [zero (fld w1 6 1), badBar (fld w1 0 6)] (.ovl (bits w1 12 12) (bits w1 7 5) (bits w1 0 6))
  | _ => .error 0

/-- The S class (R68, R242). -/
def decodeS (w1 w2 : Word32) : Except Nat Instr :=
  match fld w1 24 7 with
  | 0x01 => opUnless [zero (fld w1 0 6)] (.add (bits w1 18 6) (bits w1 12 6) (bits w1 6 6))
  | 0x02 => opUnless [zero (fld w1 0 6)] (.sub (bits w1 18 6) (bits w1 12 6) (bits w1 6 6))
  | 0x03 => opUnless [zero (fld w1 0 6)] (.mul (bits w1 18 6) (bits w1 12 6) (bits w1 6 6))
  | 0x04 => opUnless [zero (fld w1 0 6)] (.mulh (bits w1 18 6) (bits w1 12 6) (bits w1 6 6))
  | 0x05 => opUnless [zero (fld w1 0 6)] (.mulhu (bits w1 18 6) (bits w1 12 6) (bits w1 6 6))
  | 0x06 => opUnless [zero (fld w1 0 6)] (.and (bits w1 18 6) (bits w1 12 6) (bits w1 6 6))
  | 0x07 => opUnless [zero (fld w1 0 6)] (.or (bits w1 18 6) (bits w1 12 6) (bits w1 6 6))
  | 0x08 => opUnless [zero (fld w1 0 6)] (.xor (bits w1 18 6) (bits w1 12 6) (bits w1 6 6))
  | 0x09 => opUnless [zero (fld w1 0 6)] (.andn (bits w1 18 6) (bits w1 12 6) (bits w1 6 6))
  | 0x0A => opUnless [zero (fld w1 0 6)] (.shl (bits w1 18 6) (bits w1 12 6) (bits w1 6 6))
  | 0x0B => opUnless [zero (fld w1 0 6)] (.shr (bits w1 18 6) (bits w1 12 6) (bits w1 6 6))
  | 0x0C => opUnless [zero (fld w1 0 6)] (.sar (bits w1 18 6) (bits w1 12 6) (bits w1 6 6))
  | 0x0D => opUnless [zero (fld w1 0 6)] (.rol (bits w1 18 6) (bits w1 12 6) (bits w1 6 6))
  | 0x0E => opUnless [zero (fld w1 0 6)] (.min (bits w1 18 6) (bits w1 12 6) (bits w1 6 6))
  | 0x0F => opUnless [zero (fld w1 0 6)] (.max (bits w1 18 6) (bits w1 12 6) (bits w1 6 6))
  | 0x10 => opUnless [zero (fld w1 0 6)] (.minu (bits w1 18 6) (bits w1 12 6) (bits w1 6 6))
  | 0x11 => opUnless [zero (fld w1 0 6)] (.maxu (bits w1 18 6) (bits w1 12 6) (bits w1 6 6))
  | 0x12 => opUnless [zero (fld w1 0 12)] (.clz (bits w1 18 6) (bits w1 12 6))
  | 0x13 => opUnless [zero (fld w1 0 12)] (.popc (bits w1 18 6) (bits w1 12 6))
  | 0x14 => .ok (.extb (bits w1 18 6) (bits w1 12 6) (bits w1 6 6) (bits w1 0 6))
  | 0x15 => .ok (.insb (bits w1 18 6) (bits w1 12 6) (bits w1 6 6) (bits w1 0 6))
  | 0x16 => opUnless [zero (fld w1 4 2)] (.sel (bits w1 18 6) (bits w1 12 6) (bits w1 6 6) (bits w1 0 4))
  | 0x18 => .ok (.addi (bits w1 18 6) (bits w1 12 6) (bits w1 0 12))
  | 0x19 => .ok (.andi (bits w1 18 6) (bits w1 12 6) (bits w1 0 12))
  | 0x1A => .ok (.ori (bits w1 18 6) (bits w1 12 6) (bits w1 0 12))
  | 0x1B => .ok (.xori (bits w1 18 6) (bits w1 12 6) (bits w1 0 12))
  | 0x1C => opUnless [zero (fld w1 6 6)] (.shli (bits w1 18 6) (bits w1 12 6) (bits w1 0 6))
  | 0x1D => opUnless [zero (fld w1 6 6)] (.shri (bits w1 18 6) (bits w1 12 6) (bits w1 0 6))
  | 0x1E => opUnless [zero (fld w1 6 6)] (.sari (bits w1 18 6) (bits w1 12 6) (bits w1 0 6))
  | 0x20 => opUnless [zero (fld w1 1 17)]
      (.li (bits w1 18 6) (BitVec.ofNat 32 (fld w1 0 1 * 2 ^ 31 + fld w2 0 31)))
  | 0x21 => opUnless [zero (fld w1 1 17)]
      (.lih (bits w1 18 6) (BitVec.ofNat 32 (fld w1 0 1 * 2 ^ 31 + fld w2 0 31)))
  | 0x24 => opUnless [zero (fld w1 0 6), zero (fld w1 22 2)] (.cmpeq (bits w1 18 4) (bits w1 12 6) (bits w1 6 6))
  | 0x25 => opUnless [zero (fld w1 0 6), zero (fld w1 22 2)] (.cmpne (bits w1 18 4) (bits w1 12 6) (bits w1 6 6))
  | 0x26 => opUnless [zero (fld w1 0 6), zero (fld w1 22 2)] (.cmplt (bits w1 18 4) (bits w1 12 6) (bits w1 6 6))
  | 0x27 => opUnless [zero (fld w1 0 6), zero (fld w1 22 2)] (.cmple (bits w1 18 4) (bits w1 12 6) (bits w1 6 6))
  | 0x28 => opUnless [zero (fld w1 0 6), zero (fld w1 22 2)] (.cmpltu (bits w1 18 4) (bits w1 12 6) (bits w1 6 6))
  | 0x29 => opUnless [zero (fld w1 0 6), zero (fld w1 22 2)] (.cmpleu (bits w1 18 4) (bits w1 12 6) (bits w1 6 6))
  | 0x2A => opUnless [zero (fld w1 22 2)] (.cmpeqi (bits w1 18 4) (bits w1 12 6) (bits w1 0 12))
  | 0x2B => opUnless [zero (fld w1 22 2)] (.cmplti (bits w1 18 4) (bits w1 12 6) (bits w1 0 12))
  | 0x2C => opUnless [zero (fld w1 0 6), zero (fld w1 22 2), zero (fld w1 16 2), zero (fld w1 10 2)]
      (.pand (bits w1 18 4) (bits w1 12 4) (bits w1 6 4))
  | 0x2D => opUnless [zero (fld w1 0 6), zero (fld w1 22 2), zero (fld w1 16 2), zero (fld w1 10 2)]
      (.por (bits w1 18 4) (bits w1 12 4) (bits w1 6 4))
  | 0x2E => opUnless [zero (fld w1 0 6), zero (fld w1 22 2), zero (fld w1 16 2), zero (fld w1 10 2)]
      (.pxor (bits w1 18 4) (bits w1 12 4) (bits w1 6 4))
  | 0x2F => opUnless [zero (fld w1 0 12), zero (fld w1 22 2), zero (fld w1 16 2)] (.pnot (bits w1 18 4) (bits w1 12 4))
  | 0x30 => opUnless [zero (fld w1 12 6), (!specialId (bits w1 0 12), 2)] (.movs (bits w1 18 6) (bits w1 0 12))
  | 0x31 => opUnless [zero (fld w1 18 6), (!specialId (bits w1 0 12), 2)] (.movt (bits w1 12 6) (bits w1 0 12))
  | 0x32 => opUnless [zero (fld w1 18 6), zero (fld w1 0 6)] (.movp (bits w1 12 6) (bits w1 6 6))
  | 0x33 => opUnless [zero (fld w1 0 18)] (.movps (bits w1 18 6))
  | 0x38 => opUnless [zero (fld w1 3 3), badRm (fld w1 0 3)]
      (.fadd (bits w1 18 6) (bits w1 12 6) (bits w1 6 6) (rmGet (fld w1 0 3)))
  | 0x39 => opUnless [zero (fld w1 3 3), badRm (fld w1 0 3)]
      (.fsub (bits w1 18 6) (bits w1 12 6) (bits w1 6 6) (rmGet (fld w1 0 3)))
  | 0x3A => opUnless [zero (fld w1 3 3), badRm (fld w1 0 3)]
      (.fmul (bits w1 18 6) (bits w1 12 6) (bits w1 6 6) (rmGet (fld w1 0 3)))
  | 0x3B => opUnless [zero (fld w2 3 28), badRm (fld w2 0 3)]
      (.ffma (bits w1 18 6) (bits w1 12 6) (bits w1 6 6) (bits w1 0 6) (rmGet (fld w2 0 3)))
  | 0x3C => opUnless [zero (fld w1 0 6), zero (fld w1 22 2)] (.fcmplt (bits w1 18 4) (bits w1 12 6) (bits w1 6 6))
  | 0x3D => opUnless [zero (fld w1 0 6), zero (fld w1 22 2)] (.fcmpeq (bits w1 18 4) (bits w1 12 6) (bits w1 6 6))
  | 0x3E => opUnless [zero (fld w1 6 6), badRm (fld w1 0 3)]
      (.fcvti (bits w1 18 6) (bits w1 12 6) (flag w1 5) (flag w1 4) (flag w1 3) (rmGet (fld w1 0 3)))
  | 0x3F => opUnless [zero (fld w1 6 6), zero (fld w1 3 1), badRm (fld w1 0 3)]
      (.fcvtf (bits w1 18 6) (bits w1 12 6) (flag w1 5) (flag w1 4) (rmGet (fld w1 0 3)))
  | _ => .error 0

/-- The operand conditions of a three-view operation (R61, R257). -/
def vvv (panels : Nat) (w1 w2 : Word32) : List (Bool × Nat) :=
  badFmt (fld w1 19 5) :: (dstBad panels (fld w1 5 14) ++ srcBad panels (fld w2 17 14) ++ srcBad panels (fld w2 3 14))
/-- The operand conditions of an operation of a destination and one source, B zero. -/
def vv (panels : Nat) (w1 w2 : Word32) : List (Bool × Nat) :=
  badFmt (fld w1 19 5) :: zero (fld w2 3 14) :: noBit w2 0 ::
    (dstBad panels (fld w1 5 14) ++ srcBad panels (fld w2 17 14))
/-- Integer operations take no rounding (R256): MOD[2:0] must be zero. -/
def intRm (w1 : Word32) : Bool × Nat := ((fmtGet (fld w1 19 5)).isIn && fld w1 0 3 != 0, 1)

def varithOf (w1 w2 : Word32) : VArith :=
  ⟨fmtGet (fld w1 19 5), rmGet (fld w1 0 3), flag w1 4, viewOf (fld w1 5 14), viewOf (fld w2 17 14),
   viewOf (fld w2 3 14), bits w2 0 3⟩
def vbinOf (w1 w2 : Word32) : VBin :=
  ⟨fmtGet (fld w1 19 5), viewOf (fld w1 5 14), viewOf (fld w2 17 14), viewOf (fld w2 3 14), bits w2 0 3⟩
def vunOf (w1 w2 : Word32) : VUn :=
  ⟨fmtGet (fld w1 19 5), flag w1 4, viewOf (fld w1 5 14), viewOf (fld w2 17 14), bits w2 0 3⟩
def vcvtOf (w1 w2 : Word32) : VCvt :=
  ⟨fmtGet (fld w1 19 5), fmtGet (fld w2 3 5), bits w2 8 3, rmGet (fld w1 0 3), flag w1 4, viewOf (fld w1 5 14),
   viewOf (fld w2 17 14), bits w2 0 3⟩
def vshiftOf (w1 w2 : Word32) : VShift :=
  ⟨fmtGet (fld w1 19 5), viewOf (fld w1 5 14), viewOf (fld w2 17 14), amtOf (fld w2 3 14), bits w2 0 3⟩
def vredOf (w1 w2 : Word32) : VRed :=
  ⟨fmtGet (fld w1 19 5), (redOf (fld w1 0 2)).getD .sum, viewOf (fld w1 5 14), viewOf (fld w2 17 14), bits w2 0 3⟩
def vcvtBad (panels : Nat) (w1 w2 : Word32) : List (Bool × Nat) :=
  [badFmt (fld w1 19 5), badFmt (fld w2 3 5), badRm (fld w1 0 3), zero (fld w1 3 1), zero (fld w2 11 6), noBit w2 0] ++
    dstBad panels (fld w1 5 14) ++ srcBad panels (fld w2 17 14)
def vshiftBad (panels : Nat) (w1 w2 : Word32) : List (Bool × Nat) :=
  badFmt (fld w1 19 5) :: zero (fld w1 0 5) ::
    (dstBad panels (fld w1 5 14) ++ srcBad panels (fld w2 17 14) ++ amtBad (fld w2 3 14) w2)
def vredBad (panels : Nat) (w1 w2 : Word32) : List (Bool × Nat) :=
  zero (fld w1 2 3) :: ((redOf (fld w1 0 2)).isNone, 1) :: vv panels w1 w2

/-- The vector operations of the V class (R69, R257-R278). -/
def decodeVec (panels : Nat) (w1 w2 : Word32) : Except Nat Instr :=
  match fld w1 24 7 with
  | 0x01 => opUnless (badRm (fld w1 0 3) :: intRm w1 :: zero (fld w1 3 1) :: vvv panels w1 w2) (.vadd (varithOf w1 w2))
  | 0x02 => opUnless (badRm (fld w1 0 3) :: intRm w1 :: zero (fld w1 3 1) :: vvv panels w1 w2) (.vsub (varithOf w1 w2))
  | 0x03 => opUnless (badRm (fld w1 0 3) :: intRm w1 :: zero (fld w1 3 1) :: vvv panels w1 w2) (.vmul (varithOf w1 w2))
  | 0x04 => opUnless (badRm (fld w1 0 3) :: zero (fld w1 3 1) :: vvv panels w1 w2) (.vfma (varithOf w1 w2))
  | 0x05 => opUnless (zero (fld w1 0 5) :: vvv panels w1 w2) (.vmin (vbinOf w1 w2))
  | 0x06 => opUnless (zero (fld w1 0 5) :: vvv panels w1 w2) (.vmax (vbinOf w1 w2))
  | 0x09 => opUnless (zero (fld w1 0 5) :: vvv panels w1 w2) (.vand (vbinOf w1 w2))
  | 0x0A => opUnless (zero (fld w1 0 5) :: vvv panels w1 w2) (.vor (vbinOf w1 w2))
  | 0x0B => opUnless (zero (fld w1 0 5) :: vvv panels w1 w2) (.vxor (vbinOf w1 w2))
  | 0x0C => opUnless (zero (fld w1 0 5) :: vvv panels w1 w2) (.vshl (vbinOf w1 w2))
  | 0x0D => opUnless (zero (fld w1 0 5) :: vvv panels w1 w2) (.vshr (vbinOf w1 w2))
  | 0x0E => opUnless (zero (fld w1 0 5) :: vvv panels w1 w2) (.vsar (vbinOf w1 w2))
  | 0x0F => opUnless (zero (fld w1 0 5) :: vvv panels w1 w2) (.vsel (vbinOf w1 w2))
  | 0x10 => opUnless (zero (fld w1 0 5) :: vvv panels w1 w2) (.vcmpeq (vbinOf w1 w2))
  | 0x11 => opUnless (zero (fld w1 0 5) :: vvv panels w1 w2) (.vcmplt (vbinOf w1 w2))
  | 0x12 => opUnless (zero (fld w1 0 5) :: vvv panels w1 w2) (.vcmple (vbinOf w1 w2))
  | 0x17 => opUnless (zero (fld w1 0 5) :: vvv panels w1 w2) (.vmulh (vbinOf w1 w2))
  | 0x07 => opUnless (zero (fld w1 0 4) :: vv panels w1 w2) (.vabs (vunOf w1 w2))
  | 0x08 => opUnless (zero (fld w1 0 4) :: vv panels w1 w2) (.vneg (vunOf w1 w2))
  | 0x13 => opUnless (zero (fld w1 0 5) :: vv panels w1 w2)
      (.vmov (fmtGet (fld w1 19 5)) (viewOf (fld w1 5 14)) (viewOf (fld w2 17 14)) (bits w2 0 3))
  | 0x14 => opUnless ([badFmt (fld w1 19 5), zero (fld w1 0 5), zero (fld w2 3 14), noBit w2 0, reg56 (fld w2 17 14)] ++
        dstBad panels (fld w1 5 14))
      (.vbcs (fmtGet (fld w1 19 5)) (viewOf (fld w1 5 14)) (bits w2 17 6) (bits w2 0 3))
  | 0x15 => opUnless ([badFmt (fld w1 19 5), zero (fld w1 0 5), reg56 (fld w2 17 14), reg56 (fld w2 3 14)] ++
        dstBad panels (fld w1 5 14))
      (.viota (fmtGet (fld w1 19 5)) (viewOf (fld w1 5 14)) (bits w2 17 6) (bits w2 3 6) (bits w2 0 3))
  | 0x16 => opUnless (zero (fld w1 3 1) :: vvv panels w1 w2)
      (.vmadw (fmtGet (fld w1 19 5)) (flag w1 4) (bits w1 0 3) (viewOf (fld w1 5 14)) (viewOf (fld w2 17 14))
        (viewOf (fld w2 3 14)) (bits w2 0 3))
  | 0x18 => opUnless (vcvtBad panels w1 w2) (.vcvt (vcvtOf w1 w2))
  | 0x19 => opUnless (vcvtBad panels w1 w2) (.vcvtef (vcvtOf w1 w2))
  | 0x1A => opUnless (badRm (fld w1 0 3) :: vvv panels w1 w2)
      (.vsacc (fmtGet (fld w1 19 5)) (rmGet (fld w1 0 3)) (flag w1 4) (flag w1 3) (viewOf (fld w1 5 14))
        (viewOf (fld w2 17 14)) (viewOf (fld w2 3 14)) (bits w2 0 3))
  | 0x1B => opUnless ([badFmt (fld w1 19 5), zero (fld w1 0 5), zero (fld w2 17 14), zero (fld w2 3 14), noBit w2 0,
        noBit w2 1] ++ dstBad panels (fld w1 5 14))
      (.vrng (fmtGet (fld w1 19 5)) (viewOf (fld w1 5 14)) (bits w2 0 3))
  | 0x20 => opUnless (vshiftBad panels w1 w2) (.vrotr (vshiftOf w1 w2))
  | 0x21 => opUnless (vshiftBad panels w1 w2) (.vrotc (vshiftOf w1 w2))
  | 0x22 => opUnless (vshiftBad panels w1 w2) (.vbcr (vshiftOf w1 w2))
  | 0x23 => opUnless (vshiftBad panels w1 w2) (.vbcc (vshiftOf w1 w2))
  | 0x26 => opUnless (vshiftBad panels w1 w2) (.vshfr (vshiftOf w1 w2))
  | 0x27 => opUnless (vshiftBad panels w1 w2) (.vshfc (vshiftOf w1 w2))
  | 0x24 => opUnless (vredBad panels w1 w2) (.vredr (vredOf w1 w2))
  | 0x25 => opUnless (vredBad panels w1 w2) (.vredc (vredOf w1 w2))
  | 0x28 => opUnless (zero (fld w1 0 5) :: vv panels w1 w2)
      (.vtrn (fmtGet (fld w1 19 5)) (viewOf (fld w1 5 14)) (viewOf (fld w2 17 14)) (bits w2 0 3))
  | 0x30 => opUnless ([badFmt (fld w1 19 5), zero (fld w1 0 5), reg56 (fld w2 3 14), (fld w2 3 6 == 63, 2)] ++
        dstBad panels (fld w1 5 14) ++ srcBad panels (fld w2 17 14))
      (.vpart (fmtGet (fld w1 19 5)) (viewOf (fld w1 5 14)) (viewOf (fld w2 17 14)) (bits w2 3 6) (bits w2 0 3))
  | 0x31 => opUnless ([badFmt (fld w1 19 5), zero (fld w1 0 5), zero (fld w2 3 14), noBit w2 0, reg56 (fld w1 5 14)] ++
        srcBad panels (fld w2 17 14))
      (.vcnt (fmtGet (fld w1 19 5)) (bits w1 5 6) (viewOf (fld w2 17 14)) (bits w2 0 3))
  | 0x32 => opUnless ([badFmt (fld w1 19 5), zero (fld w1 1 4), zero (fld w2 3 14), noBit w2 0, reg56 (fld w1 5 14)] ++
        srcBad panels (fld w2 17 14))
      (.vargm (fmtGet (fld w1 19 5)) (flag w1 0) (bits w1 5 6) (viewOf (fld w2 17 14)) (bits w2 0 3))
  | _ => .error 0

/-- The group code, MOD[4:3] and FMT of a direction operation (R61, R289). -/
def dirBad (w1 : Word32) : List (Bool × Nat) :=
  [((grpOf (fld w1 0 3)).isNone, 1), zero (fld w1 3 2), zero (fld w1 19 5)]
/-- A direction operand under R56. -/
def dirReg (w1 : Word32) (x : Nat) : List (Bool × Nat) := [reg56 x, badDir (grpGet (fld w1 0 3)) x]
def dtriOf (w1 w2 : Word32) : DTri :=
  ⟨grpGet (fld w1 0 3), bits w1 5 6, bits w2 17 6, bits w2 3 6, bits w2 0 3⟩
def dpairOf (w1 w2 : Word32) : DPair := ⟨grpGet (fld w1 0 3), bits w1 5 6, bits w2 17 6, bits w2 0 3⟩
def ddd (w1 w2 : Word32) : List (Bool × Nat) :=
  dirBad w1 ++ dirReg w1 (fld w1 5 14) ++ dirReg w1 (fld w2 17 14) ++ dirReg w1 (fld w2 3 14)

/-- The direction operations of the V class (R288, R289). -/
def decodeDir (panels : Nat) (w1 w2 : Word32) : Except Nat Instr :=
  match fld w1 24 7 with
  | 0x40 => opUnless ([((grpOf (fld w1 0 3)).isNone, 1), zero (fld w1 3 2), badFmt (fld w1 19 5), zero (fld w2 3 14),
        noBit w2 0] ++ dirReg w1 (fld w1 5 14) ++ srcBad panels (fld w2 17 14))
      (.dnorm (fmtGet (fld w1 19 5)) (grpGet (fld w1 0 3)) (bits w1 5 6) (viewOf (fld w2 17 14)) (bits w2 0 3))
  | 0x41 => opUnless ([((grpOf (fld w1 0 3)).isNone, 1), zero (fld w1 3 2), badFmt (fld w1 19 5), zero (fld w2 3 14),
        noBit w2 0] ++ dirReg w1 (fld w2 17 14) ++ dstBad panels (fld w1 5 14))
      (.dcvt (fmtGet (fld w1 19 5)) (grpGet (fld w1 0 3)) (viewOf (fld w1 5 14)) (bits w2 17 6) (bits w2 0 3))
  | 0x42 => opUnless (dirBad w1 ++ [reg56 (fld w1 5 14)] ++ dirReg w1 (fld w2 17 14) ++ dirReg w1 (fld w2 3 14))
      (.ddot (dtriOf w1 w2))
  | 0x43 => opUnless (dirBad w1 ++ [reg56 (fld w1 5 14)] ++ dirReg w1 (fld w2 17 14) ++ dirReg w1 (fld w2 3 14))
      (.ddotn (dtriOf w1 w2))
  | 0x44 => opUnless (dirBad w1 ++ [zero (fld w2 3 14), noBit w2 0, reg56 (fld w2 17 14)] ++ dirReg w1 (fld w1 5 14))
      (.dscl (dpairOf w1 w2))
  | 0x45 => opUnless (dirBad w1 ++ [zero (fld w2 3 14), noBit w2 0] ++ dirReg w1 (fld w1 5 14) ++ dirReg w1 (fld w2 17 14))
      (.dneg (dpairOf w1 w2))
  | 0x46 => opUnless (ddd w1 w2) (.dadd (dtriOf w1 w2))
  | 0x47 => opUnless (ddd w1 w2) (.dsub (dtriOf w1 w2))
  | 0x48 => opUnless (dirBad w1 ++ [reg56 (fld w2 3 14)] ++ dirReg w1 (fld w1 5 14) ++ dirReg w1 (fld w2 17 14))
      (.dmix (dtriOf w1 w2))
  | 0x49 => opUnless (ddd w1 w2) (.dproj (dtriOf w1 w2))
  | 0x4A => opUnless (dirBad w1 ++ dstBad panels (fld w1 5 14) ++ dirReg w1 (fld w2 17 14) ++ dirReg w1 (fld w2 3 14))
      (.dsim (grpGet (fld w1 0 3)) (viewOf (fld w1 5 14)) (bits w2 17 6) (bits w2 3 6) (bits w2 0 3))
  | 0x4B => opUnless (dirBad w1 ++ [zero (fld w2 3 14), noBit w2 0, (fld w1 5 14 / 16 != 0, 1)] ++
        dirReg w1 (fld w2 17 14))
      (.dzt (grpGet (fld w1 0 3)) (bits w1 5 4) (bits w2 17 6) (bits w2 0 3))
  | 0x4C => opUnless (dirBad w1 ++ [zero (fld w2 3 14), noBit w2 0] ++ dirReg w1 (fld w1 5 14) ++ dirReg w1 (fld w2 17 14))
      (.dmov (dpairOf w1 w2))
  | 0x4D => opUnless (dirBad w1 ++ [zero (fld w2 3 14), noBit w2 0, reg56 (fld w1 5 14)] ++ dirReg w1 (fld w2 17 14))
      (.dgetn (dpairOf w1 w2))
  | 0x4E => opUnless (dirBad w1 ++ [zero (fld w2 3 14), noBit w2 0, reg56 (fld w2 17 14)] ++ dirReg w1 (fld w1 5 14))
      (.dsetn (dpairOf w1 w2))
  | _ => .error 0

/-- The V class (R69). -/
def decodeV (panels : Nat) (w1 w2 : Word32) : Except Nat Instr :=
  if fld w1 24 7 < 0x40 then decodeVec panels w1 w2 else decodeDir panels w1 w2

def funOf (w1 w2 : Word32) : FUn :=
  ⟨fmtGet (fld w1 19 5), rmGet (fld w1 0 3), viewOf (fld w1 5 14), viewOf (fld w2 17 14), bits w2 0 3⟩
def sdivOf (w1 w2 : Word32) : SDiv := ⟨bits w1 5 6, bits w2 17 6, bits w2 3 6, bits w2 0 3⟩
def funBad (panels : Nat) (w1 w2 : Word32) : List (Bool × Nat) :=
  zero (fld w1 3 2) :: badRm (fld w1 0 3) :: vv panels w1 w2
def sdivBad (w1 w2 : Word32) : List (Bool × Nat) :=
  [zero (fld w1 19 5), zero (fld w1 0 5), reg56 (fld w1 5 14), reg56 (fld w2 17 14), reg56 (fld w2 3 14)]

/-- The F class (R70, R279, R280). -/
def decodeF (panels : Nat) (w1 w2 : Word32) : Except Nat Instr :=
  match fld w1 24 7 with
  | 0x01 => opUnless (funBad panels w1 w2) (.frcp (funOf w1 w2))
  | 0x02 => opUnless (funBad panels w1 w2) (.frsq (funOf w1 w2))
  | 0x03 => opUnless (funBad panels w1 w2) (.fsqrt (funOf w1 w2))
  | 0x04 => opUnless (funBad panels w1 w2) (.fexp2 (funOf w1 w2))
  | 0x05 => opUnless (funBad panels w1 w2) (.flog2 (funOf w1 w2))
  | 0x06 => opUnless (funBad panels w1 w2) (.fsin (funOf w1 w2))
  | 0x07 => opUnless (funBad panels w1 w2) (.fcos (funOf w1 w2))
  | 0x08 => opUnless (funBad panels w1 w2) (.ftanh (funOf w1 w2))
  | 0x09 => opUnless (funBad panels w1 w2) (.fsigm (funOf w1 w2))
  | 0x0A => opUnless (zero (fld w1 3 2) :: badRm (fld w1 0 3) :: vvv panels w1 w2)
      (.fdiv (fmtGet (fld w1 19 5)) (rmGet (fld w1 0 3)) (viewOf (fld w1 5 14)) (viewOf (fld w2 17 14))
        (viewOf (fld w2 3 14)) (bits w2 0 3))
  | 0x10 => opUnless (sdivBad w1 w2) (.sdiv (sdivOf w1 w2))
  | 0x11 => opUnless (sdivBad w1 w2) (.sdivu (sdivOf w1 w2))
  | 0x12 => opUnless (sdivBad w1 w2) (.srem (sdivOf w1 w2))
  | 0x13 => opUnless (sdivBad w1 w2) (.sremu (sdivOf w1 w2))
  | _ => .error 0

def maddrOf (w1 w2 : Word32) : MAddr := ⟨bits w1 18 6, bits w2 11 20, bits w2 3 8, bits w2 0 3⟩

/-- The local and remote atomics (R71, R177). -/
def atomics (k : Nat) : Option ((Bool → BitVec 6 → BitVec 6 → MAddr → Instr) × (Bool → BitVec 6 → BitVec 6 → MAddr → Instr)) :=
  match k with
  | 0x10 => some (.aadd, .aaddRem)
  | 0x11 => some (.afadd, .afaddRem)
  | 0x12 => some (.amin, .aminRem)
  | 0x13 => some (.amax, .amaxRem)
  | 0x14 => some (.aminu, .aminuRem)
  | 0x15 => some (.amaxu, .amaxuRem)
  | 0x16 => some (.aand, .aandRem)
  | 0x17 => some (.aor, .aorRem)
  | 0x18 => some (.axor, .axorRem)
  | 0x19 => some (.axch, .axchRem)
  | 0x1A => some (.acas, .acasRem)
  | _ => none

/-- The remaining operations of the M class (R71, R134, R177). -/
def decodeMem (panels : Nat) (w1 w2 : Word32) : Except Nat Instr :=
  match fld w1 24 7 with
  | 0x01 => opUnless ([zero (fld w1 0 4), noBit w2 0] ++ dstBad panels (fld w1 4 14))
      (.ldv (viewOf (fld w1 4 14)) (maddrOf w1 w2))
  | 0x02 => opUnless ([zero (fld w1 0 4), noBit w2 0] ++ srcBad panels (fld w1 4 14))
      (.stv (viewOf (fld w1 4 14)) (maddrOf w1 w2))
  | 0x03 => opUnless [zero (fld w1 3 1), zero (fld w1 4 8), noBit w2 0]
      (.lds (flag w1 2) (sizeOf' (fld w1 0 2)) (bits w1 12 6) (maddrOf w1 w2))
  | 0x04 => opUnless [zero (fld w1 2 2), zero (fld w1 4 8), noBit w2 0]
      (.sts (sizeOf' (fld w1 0 2)) (bits w1 12 6) (maddrOf w1 w2))
  | 0x05 => opUnless ([zero (fld w1 0 4), noBit w2 0] ++ dstBad panels (fld w1 4 14))
      (.ldg (viewOf (fld w1 4 14)) (maddrOf w1 w2))
  | 0x06 => opUnless ([zero (fld w1 0 4), noBit w2 0] ++ srcBad panels (fld w1 4 14))
      (.stg (viewOf (fld w1 4 14)) (maddrOf w1 w2))
  | 0x07 => opUnless ([zero (fld w1 3 1), ((grpOf (fld w1 0 3)).isNone, 1), noBit w2 0] ++ dirReg w1 (fld w1 4 14))
      (.ldd (grpGet (fld w1 0 3)) (bits w1 4 6) (maddrOf w1 w2))
  | 0x08 => opUnless ([zero (fld w1 3 1), ((grpOf (fld w1 0 3)).isNone, 1), noBit w2 0] ++ dirReg w1 (fld w1 4 14))
      (.std (grpGet (fld w1 0 3)) (bits w1 4 6) (maddrOf w1 w2))
  | 0x09 => opUnless [zero (fld w1 1 3), zero (fld w1 10 2)]
      (.ldwb (flag w1 0) (bits w1 12 6) (bits w1 4 6) (maddrOf w1 w2))
  | 0x20 => opUnless [zero (fld w1 10 2), badBar (fld w1 4 6), (!flag w1 3 && fld w1 0 3 != 0, 1), badScope (fld w1 0 3)]
      (.ldr (if flag w1 3 then some (scopeGet (fld w1 0 3)) else none) (bits w1 12 6) (bits w1 4 6) (maddrOf w1 w2))
  | 0x21 => opUnless [zero (fld w1 10 2), badBar (fld w1 4 6), (!flag w1 3 && fld w1 0 3 != 0, 1), badScope (fld w1 0 3)]
      (.str (if flag w1 3 then some (scopeGet (fld w1 0 3)) else none) (bits w1 12 6) (bits w1 4 6) (maddrOf w1 w2))
  | 0x22 => opUnless [zero (fld w1 0 4), zero (fld w1 4 8), zero (fld w2 0 1)] (.shcpy (bits w1 12 6) (maddrOf w1 w2))
  | 0x23 => opUnless [zero (fld w1 3 1), badScope (fld w1 0 3), reg56 (fld w1 4 14), badBar (fld w1 4 6),
        zero (fld w2 0 1)]
      (.publ (bits w1 4 6) (scopeGet (fld w1 0 3)) (maddrOf w1 w2))
  | 0x24 => opUnless [zero (fld w1 0 18), zero (fld w2 3 28), zero (fld w2 0 2)] (.shcan (bits w1 18 6) (bits w2 0 3))
  | 0x25 => opUnless [zero (fld w1 0 12), zero (fld w2 3 28), zero (fld w2 0 1)]
      (.shqry (bits w1 18 6) (bits w1 12 6) (bits w2 0 3))
  | _ => .error 0

/-- The M class (R71). -/
def decodeM (panels : Nat) (w1 w2 : Word32) : Except Nat Instr :=
  match atomics (fld w1 24 7) with
  | some (loc, rem) =>
      if flag w1 3 then
        opUnless [zero (fld w1 0 2), zero (fld w1 10 2), badBar (fld w1 4 6)]
          (rem (flag w1 2) (bits w1 12 6) (bits w1 4 6) (maddrOf w1 w2))
      else
        opUnless [zero (fld w1 0 2), zero (fld w1 10 2)] (loc (flag w1 2) (bits w1 12 6) (bits w1 4 6) (maddrOf w1 w2))
  | none => decodeMem panels w1 w2

/-- The conditions of R323 that MMA, MMAZ and MSEQ share. -/
def mmaBad (panels : Nat) (w1 w2 : Word32) : List (Bool × Nat) :=
  [badFmt (fld w1 19 5), badFmt (fld w1 14 5), ((dmodeOf (fld w1 5 2)).isNone, 1), ((sclOf (fld w1 3 2)).isNone, 1),
   zero (fld w1 0 2), zero (fld w2 0 1)] ++ srcBad panels (fld w2 17 14)
def xmmaOf (w1 w2 : Word32) : XMma :=
  ⟨fmtGet (fld w1 19 5), fmtGet (fld w1 14 5), bits w1 11 3, bits w1 7 4, (dmodeOf (fld w1 5 2)).getD .none,
   (sclOf (fld w1 3 2)).getD .none, flag w1 2, viewOf (fld w2 17 14), flag w2 16, bits w2 6 10, flag w2 5, bits w2 0 3⟩
def xseqOf (w1 w2 : Word32) : XSeq :=
  ⟨fmtGet (fld w1 19 5), fmtGet (fld w1 14 5), bits w1 11 3, bits w1 7 4, (dmodeOf (fld w1 5 2)).getD .none,
   (sclOf (fld w1 3 2)).getD .none, flag w1 2, viewOf (fld w2 17 14), bits w2 11 6, bits w2 0 3⟩
def xmoveOf (w1 w2 : Word32) : XMove :=
  ⟨bits w1 11 3, viewOf (fld w2 17 14), bits w2 11 6, flag w2 10, bits w2 0 3⟩

/-- The X class (R72, R323). -/
def decodeX (panels : Nat) (w1 w2 : Word32) : Except Nat Instr :=
  match fld w1 24 7 with
  | 0x01 => opUnless (zero (fld w2 3 2) :: mmaBad panels w1 w2) (.mma (xmmaOf w1 w2))
  | 0x02 => opUnless (zero (fld w2 3 2) :: mmaBad panels w1 w2) (.mmaz (xmmaOf w1 w2))
  | 0x03 => opUnless (zero (fld w2 3 8) :: mmaBad panels w1 w2) (.mseq (xseqOf w1 w2))
  | 0x04 => opUnless [zero (fld w1 14 10), zero (fld w1 1 10), zero (fld w2 3 28), zero (fld w2 0 1), noBit w2 1]
      (.mzero (bits w1 11 3) (flag w1 0) (bits w2 0 3))
  | 0x05 => opUnless ([zero (fld w1 14 10), zero (fld w1 0 11), zero (fld w2 3 7), zero (fld w2 0 1)] ++
        dstBad panels (fld w2 17 14)) (.mrd (xmoveOf w1 w2))
  | 0x06 => opUnless ([zero (fld w1 14 10), zero (fld w1 0 11), zero (fld w2 3 7), zero (fld w2 0 1)] ++
        srcBad panels (fld w2 17 14)) (.mwr (xmoveOf w1 w2))
  | _ => .error 0

/-- The K class (R72, R324). -/
def decodeK (panels : Nat) (w1 : Word32) : Except Nat Instr :=
  match fld w1 24 7 with
  | 0x01 => opUnless (zero (fld w1 1 7) :: srcBad panels (fld w1 8 14))
      (.kset (flag w1 23) (flag w1 22) (viewOf (fld w1 8 14)) (flag w1 0))
  | 0x02 => opUnless [zero (fld w1 1 22), noBit w1 0] (.kone (flag w1 23))
  | _ => .error 0

def dcolOf (w1 w2 : Word32) : DCol :=
  ⟨bits w1 22 2, bits w1 18 4, bits w1 13 5, bits w1 0 6, bits w2 17 14, bits w2 9 8⟩
def dcolBad (w1 w2 : Word32) : List (Bool × Nat) :=
  [zero (fld w1 6 7), zero (fld w2 0 9), (12288 ≤ fld w2 17 14, 1)]

/-- The D class (R72, R103). -/
def decodeD (w1 w2 : Word32) : Except Nat Instr :=
  match fld w1 24 7 with
  | 0x01 => .ok (.act (bits w1 22 2) (bits w1 18 4) (bits w1 6 12) (bits w1 0 6))
  | 0x02 => opUnless (dcolBad w1 w2) (.rd (dcolOf w1 w2))
  | 0x03 => opUnless (dcolBad w1 w2) (.wr (dcolOf w1 w2))
  | 0x04 => opUnless (dcolBad w1 w2) (.rda (dcolOf w1 w2))
  | 0x05 => opUnless (dcolBad w1 w2) (.wra (dcolOf w1 w2))
  | 0x06 => opUnless [zero (fld w1 6 12)] (.pre (bits w1 22 2) (bits w1 18 4) (bits w1 0 6))
  | 0x07 => opUnless [zero (fld w1 6 16), (fld w1 0 6 != 0, 7)] (.prea (bits w1 22 2))
  | 0x08 => opUnless [zero (fld w1 6 16), (fld w1 0 6 != 0, 7)] (.ref (bits w1 22 2))
  | 0x09 => opUnless [zero (fld w1 6 12)] (.refb (bits w1 22 2) (bits w1 18 4) (bits w1 0 6))
  | _ => .error 0

/-- The operand of an N-class operation (R206); dst says that the operand is written. -/
def nopndOf (kind x : Nat) : NOpnd :=
  match kind with
  | 0 => .row (viewOf x)
  | 1 => .scalar (BitVec.ofNat 6 x)
  | 2 => .spad (BitVec.ofNat 6 x)
  | _ => .none
def nopndBad (panels : Nat) (dst : Bool) (kind x : Nat) (w2 : Word32) : List (Bool × Nat) :=
  match kind with
  | 0 => if dst then dstBad panels x else srcBad panels x
  | 1 => [reg56 x]
  | 2 => [reg56 x]
  | _ => [zero x, noBit w2 1]
def ngrpOf (w1 w2 : Word32) : NGrp := ⟨dirOf (fld w1 22 2), bits w1 18 4, bits w2 6 3, bits w2 0 3⟩
/-- WIDTH 5 to 7, the reserved bit [5] and the reserved step bit (R206). -/
def ngrpBad (w2 : Word32) : List (Bool × Nat) := [(4 < fld w2 6 3, 1), zero (fld w2 5 1), zero (fld w2 0 1)]
def stampOf (w1 w2 : Word32) : Stamp :=
  match fld w1 0 2 with
  | 0 => .abs (bits w2 15 16)
  | 1 => .reg (bits w2 9 6) (bits w2 15 16)
  | _ => .age (bits w2 15 16)

/-- The N class (R72, R206). -/
def decodeN (panels : Nat) (w1 w2 : Word32) : Except Nat Instr :=
  match fld w1 24 7 with
  | 0x01 => opUnless ([(fld w1 2 2 == 3, 1), zero (fld w1 0 2), zero (fld w2 9 22), zero (fld w2 3 2)] ++ ngrpBad w2 ++
        nopndBad panels false (fld w1 2 2) (fld w1 4 14) w2)
      (.sdrv (ngrpOf w1 w2) (nopndOf (fld w1 2 2) (fld w1 4 14)))
  | 0x02 => opUnless ([(fld w1 0 2 == 3, 1), (fld w1 0 2 != 1 && fld w2 9 6 != 0, 1), zero (fld w2 3 2)] ++ ngrpBad w2 ++
        nopndBad panels true (fld w1 2 2) (fld w1 4 14) w2)
      (.stap (ngrpOf w1 w2) (nopndOf (fld w1 2 2) (fld w1 4 14)) (stampOf w1 w2))
  | 0x03 => opUnless ([(fld w1 2 2 == 1, 1), (fld w1 0 2 == 1 || fld w1 0 2 == 3, 1), zero (fld w2 3 2)] ++ ngrpBad w2 ++
        nopndBad panels true (fld w1 2 2) (fld w1 4 14) w2)
      (.sfwd (ngrpOf w1 w2) (nopndOf (fld w1 2 2) (fld w1 4 14)) (stampOf w1 w2) (dirOf (fld w2 13 2)) (bits w2 9 4))
  | 0x04 => opUnless ([(fld w1 2 2 != 3, 1), zero (fld w1 0 2), zero (fld w2 9 22), zero (fld w2 3 2), zero (fld w1 4 14),
        noBit w2 1] ++ ngrpBad w2) (.seos (ngrpOf w1 w2))
  | 0x05 => opUnless ([(fld w1 2 2 == 1 || fld w1 2 2 == 3, 1), (fld w1 0 2 == 1 || fld w1 0 2 == 3, 1),
        (fld w2 3 2 == 3, 1)] ++ ngrpBad w2 ++ nopndBad panels false (fld w1 2 2) (fld w1 4 14) w2)
      (.sred (ngrpOf w1 w2) (nopndOf (fld w1 2 2) (fld w1 4 14)) (stampOf w1 w2) (dirOf (fld w2 13 2)) (bits w2 9 4)
        (bits w2 3 2))
  | _ => .error 0

/-- One operation of a class, read from its words on a tile whose CAPS reports the given panels: the operation, or
the lowest UNDEF reason of R75 that its own encoding gives. -/
def decodeOp (panels : Nat) (cl : Cls) (w1 w2 : Word32) : Except Nat Instr :=
  match cl with
  | .c => decodeC w1 w2
  | .s => decodeS w1 w2
  | .v => decodeV panels w1 w2
  | .f => decodeF panels w1 w2
  | .m => decodeM panels w1 w2
  | .x => decodeX panels w1 w2
  | .k => decodeK panels w1
  | .d => decodeD w1 w2
  | .n => decodeN panels w1 w2

/-! ### The encoder -/

/-- The 14-bit field of a view (R48). -/
def View.code : View → Nat
  | .row r => r.toNat
  | .col p c => 0x1000 + p.toNat * 64 + c.toNat
  | .diag p d => 0x2000 + p.toNat * 64 + d.toNat
  | .spec k => 0x3000 + k.toNat
def Amt.code : Amt → Nat
  | .imm n => n.toNat
  | .reg k => 0x3000 + k.toNat
/-- KIND and VOP of an N-class operand (R206). -/
def NOpnd.code : NOpnd → Nat × Nat
  | .row v => (0, v.code)
  | .scalar r => (1, r.toNat)
  | .spad r => (2, r.toNat)
  | .none => (3, 0)
/-- SMODE, STAMP and SREG of a tap (R206). -/
def Stamp.code : Stamp → Nat × Nat × Nat
  | .abs n => (0, n.toNat, 0)
  | .reg k n => (1, n.toNat, k.toNat)
  | .age n => (2, n.toNat, 0)

/-- A first word: the opcode above 24 bits of fields. -/
def word1 (op fields : Nat) : Word32 := BitVec.ofNat 32 (op * 2 ^ 24 + fields)
/-- Layout SR (R60). -/
def encSR (op d a b x : Nat) : List Word32 := [word1 op (d * 2 ^ 18 + a * 2 ^ 12 + b * 64 + x)]
/-- Layout SI (R60). -/
def encSI (op d a i : Nat) : List Word32 := [word1 op (d * 2 ^ 18 + a * 2 ^ 12 + i)]
/-- The layout of R61. -/
def encV (op fmt dst mod a b r : Nat) : List Word32 :=
  [word1 op (fmt * 2 ^ 19 + dst * 32 + mod), BitVec.ofNat 32 (a * 2 ^ 17 + b * 8 + r)]
/-- The layout of R62. -/
def encM (op : Nat) (opnd mod : Nat) (m : MAddr) : List Word32 :=
  [word1 op (m.sa.toNat * 2 ^ 18 + opnd * 16 + mod),
   BitVec.ofNat 32 (m.off.toNat * 2 ^ 11 + m.astep.toNat * 8 + m.rstep.toNat)]
/-- SB and SC in the OPND field (R62). -/
def sbsc (sb sc : BitVec 6) : Nat := sb.toNat * 256 + sc.toNat
/-- The layout of R63. -/
def encX (op fa fb acc xmod av xarg r : Nat) : List Word32 :=
  [word1 op (fa * 2 ^ 19 + fb * 2 ^ 14 + acc * 2 ^ 11 + xmod), BitVec.ofNat 32 (av * 2 ^ 17 + xarg * 8 + r)]
/-- The layout of R66. -/
def encN (op : Nat) (g : NGrp) (o : NOpnd) (smode stamp out rfmt : Nat) : List Word32 :=
  [word1 op (g.dir.code * 2 ^ 22 + g.lane.toNat * 2 ^ 18 + o.code.2 * 16 + o.code.1 * 4 + smode),
   BitVec.ofNat 32 (stamp * 2 ^ 15 + out * 2 ^ 9 + g.width.toNat * 64 + rfmt * 8 + g.rstep.toNat)]
def encArith (op : Nat) (f : VArith) : List Word32 :=
  encV op f.fmt.code f.dst.code (f.sat.toNat * 16 + f.rm.code) f.a.code f.b.code f.rstep.toNat
def encBin (op : Nat) (f : VBin) : List Word32 := encV op f.fmt.code f.dst.code 0 f.a.code f.b.code f.rstep.toNat
def encUn (op : Nat) (f : VUn) : List Word32 := encV op f.fmt.code f.dst.code (f.sat.toNat * 16) f.a.code 0 f.rstep.toNat
def encCvt (op : Nat) (f : VCvt) : List Word32 :=
  encV op f.fmt.code f.dst.code (f.sat.toNat * 16 + f.rm.code) f.a.code (f.part.toNat * 32 + f.sfmt.code) f.rstep.toNat
def encShift (op : Nat) (f : VShift) : List Word32 := encV op f.fmt.code f.dst.code 0 f.a.code f.amt.code f.rstep.toNat
def encRed (op : Nat) (f : VRed) : List Word32 := encV op f.fmt.code f.dst.code f.op.code f.a.code 0 f.rstep.toNat
def encTri (op : Nat) (f : DTri) : List Word32 := encV op 0 f.d.toNat f.g.code f.a.toNat f.b.toNat f.rstep.toNat
def encPair (op : Nat) (f : DPair) : List Word32 := encV op 0 f.d.toNat f.g.code f.a.toNat 0 f.rstep.toNat
def encFun (op : Nat) (f : FUn) : List Word32 := encV op f.fmt.code f.dst.code f.rm.code f.a.code 0 f.rstep.toNat
def encSdiv (op : Nat) (f : SDiv) : List Word32 := encV op 0 f.d.toNat 0 f.a.toNat f.b.toNat f.rstep.toNat
def encMma (op : Nat) (f : XMma) : List Word32 :=
  encX op f.fa.code f.fb.code f.acc.toNat
    (f.ksel.toNat * 128 + f.dmode.code * 32 + f.scl.code * 8 + f.kstep.toNat * 4) f.av.code
    (f.half.toNat * 2 ^ 13 + f.goff.toNat * 8 + f.gstep.toNat * 4) f.rstep.toNat
def encMove (op : Nat) (f : XMove) : List Word32 :=
  encX op 0 0 f.acc.toNat 0 f.av.code (f.mrow.toNat * 256 + f.mstep.toNat * 128) f.rstep.toNat
def encCol (op : Nat) (f : DCol) : List Word32 :=
  [word1 op (f.st.toNat * 2 ^ 22 + f.bk.toNat * 2 ^ 18 + f.col.toNat * 2 ^ 13 + f.step.toNat),
   BitVec.ofNat 32 (f.spad.toNat * 2 ^ 17 + f.sstep.toNat * 2 ^ 9)]
def acqCode : Option Scope → Nat
  | none => 0
  | some s => 8 + s.code

/-- The class an operation belongs to; a row that is a step of the machine belongs to none. -/
def classOf : Instr → Option Cls
  | .br _ | .brp _ _ _ | .call _ | .ret | .jmps _ _ | .loop _ _ | .loopv _ _ | .loops _ _ _ _ _ | .leave
  | .walkn _ _ _ | .align _ | .hold _ | .waita _ _ _ _ _ _ _ | .bari _ _ _ _ _ _ | .bara _ | .barw _ _ _ _
  | .fence _ | .trap _ | .sysc _ | .eret | .lease _ _ _ | .mark _ _ | .savept _ _ | .ovl _ _ _ => some .c
  | .add _ _ _ | .sub _ _ _ | .mul _ _ _ | .mulh _ _ _ | .mulhu _ _ _ | .and _ _ _ | .or _ _ _ | .xor _ _ _
  | .andn _ _ _ | .shl _ _ _ | .shr _ _ _ | .sar _ _ _ | .rol _ _ _ | .min _ _ _ | .max _ _ _ | .minu _ _ _
  | .maxu _ _ _ | .clz _ _ | .popc _ _ | .extb _ _ _ _ | .insb _ _ _ _ | .sel _ _ _ _ | .addi _ _ _
  | .andi _ _ _ | .ori _ _ _ | .xori _ _ _ | .shli _ _ _ | .shri _ _ _ | .sari _ _ _ | .li _ _ | .lih _ _
  | .cmpeq _ _ _ | .cmpne _ _ _ | .cmplt _ _ _ | .cmple _ _ _ | .cmpltu _ _ _ | .cmpleu _ _ _ | .cmpeqi _ _ _
  | .cmplti _ _ _ | .pand _ _ _ | .por _ _ _ | .pxor _ _ _ | .pnot _ _ | .movs _ _ | .movt _ _ | .movp _ _
  | .movps _ | .fadd _ _ _ _ | .fsub _ _ _ _ | .fmul _ _ _ _ | .ffma _ _ _ _ _ | .fcmplt _ _ _ | .fcmpeq _ _ _
  | .fcvti _ _ _ _ _ _ | .fcvtf _ _ _ _ _ => some .s
  | .vadd _ | .vsub _ | .vmul _ | .vfma _ | .vmin _ | .vmax _ | .vabs _ | .vneg _ | .vand _ | .vor _ | .vxor _
  | .vshl _ | .vshr _ | .vsar _ | .vsel _ | .vcmpeq _ | .vcmplt _ | .vcmple _ | .vmov _ _ _ _ | .vbcs _ _ _ _
  | .viota _ _ _ _ _ | .vmadw _ _ _ _ _ _ _ | .vmulh _ | .vcvt _ | .vcvtef _ | .vsacc _ _ _ _ _ _ _ _
  | .vrng _ _ _ | .vrotr _ | .vrotc _ | .vbcr _ | .vbcc _ | .vredr _ | .vredc _ | .vshfr _ | .vshfc _
  | .vtrn _ _ _ _ | .vpart _ _ _ _ _ | .vcnt _ _ _ _ | .vargm _ _ _ _ _ | .dnorm _ _ _ _ _ | .dcvt _ _ _ _ _
  | .ddot _ | .ddotn _ | .dscl _ | .dneg _ | .dadd _ | .dsub _ | .dmix _ | .dproj _ | .dsim _ _ _ _ _
  | .dzt _ _ _ _ | .dmov _ | .dgetn _ | .dsetn _ => some .v
  | .frcp _ | .frsq _ | .fsqrt _ | .fexp2 _ | .flog2 _ | .fsin _ | .fcos _ | .ftanh _ | .fsigm _
  | .fdiv _ _ _ _ _ _ | .sdiv _ | .sdivu _ | .srem _ | .sremu _ => some .f
  | .ldv _ _ | .stv _ _ | .lds _ _ _ _ | .sts _ _ _ | .ldg _ _ | .stg _ _ | .ldd _ _ _ | .std _ _ _
  | .ldwb _ _ _ _ | .aadd _ _ _ _ | .afadd _ _ _ _ | .amin _ _ _ _ | .amax _ _ _ _ | .aminu _ _ _ _
  | .amaxu _ _ _ _ | .aand _ _ _ _ | .aor _ _ _ _ | .axor _ _ _ _ | .axch _ _ _ _ | .acas _ _ _ _
  | .aaddRem _ _ _ _ | .afaddRem _ _ _ _ | .aminRem _ _ _ _ | .amaxRem _ _ _ _ | .aminuRem _ _ _ _
  | .amaxuRem _ _ _ _ | .aandRem _ _ _ _ | .aorRem _ _ _ _ | .axorRem _ _ _ _ | .axchRem _ _ _ _
  | .acasRem _ _ _ _ | .ldr _ _ _ _ | .str _ _ _ _ | .shcpy _ _ | .publ _ _ _ | .shcan _ _ | .shqry _ _ _ => some .m
  | .mma _ | .mmaz _ | .mseq _ | .mzero _ _ _ | .mrd _ | .mwr _ => some .x
  | .kset _ _ _ _ | .kone _ => some .k
  | .act _ _ _ _ | .rd _ | .wr _ | .rda _ | .wra _ | .pre _ _ _ | .prea _ | .ref _ | .refb _ _ _ => some .d
  | .sdrv _ _ | .stap _ _ _ | .sfwd _ _ _ _ _ | .seos _ | .sred _ _ _ _ _ _ => some .n
  | .bundleIssue _ | .exposedResultLands _ | .ovlLoadComplete _ | .ldwbComplete _ | .mmaPass1Start _
  | .mmaResultReady _ | .mseqStepStart _ | .vaultLanding _ | .wrSample _ | .prechargePoint _ _
  | .refreshComplete _ _ | .drefl _ | .mpRefreshDeadline _ _ | .bandChange _ _ | .refreshGuardRefresh _ _
  | .sidePortServe _ _ | .dynamicAccessEnd _ _ | .pageWalkComplete _ | .replicaCommit _ _ | .publishSwap _
  | .shuttleBeatIssue _ | .shuttleBeatComplete _ | .barrierPhaseComplete _ _ | .barrierCompletionSeen _ _
  | .barwResume _ | .waitaReadReturn _ | .streamValueArrives _ _ _ _ _ _ | .holdRelease _ | .holdto _
  | .plotOverdue _ | .plotStopArrival _ | .preemptRequest _ _ | .forcedStop _ | .plotResume _ _ _
  | .retentionEntry _ | .plotArming _ _ _ | .startPulse _ | .tileFreed _ | .doorbell _ _ | .ringRead _
  | .queueEnable _ _ | .launch _ _ _ | .copy _ _ _ | .signal _ _ _ _ _ | .wait _ _ _ _ _ _ | .waitSatisfied _
  | .waitTimeout _ | .callib _ _ _ | .retib _ | .graph _ _ _ _ _ | .fencek _ | .markk _ _
  | .graphNodeComplete _ _ | .timedNodeOffset _ _ | .queuePatienceExpiry _ | .irqAgeExpiry _ | .queueReset _
  | .queueResetComplete _ | .patternChange _ _ | .splitChange _ _ | .droop _ | .droopFloorEnd _ | .leaseGrant _
  | .leaseDeny _ _ | .leaseDurExpiry _ | .leaseCapReached _ | .supplyLoss | .pfailArrival _
  | .pfailHoldTimeout _ | .keepStoreSave | .pcSample _ | .counterSnapshot _ | .linkTraining _ _ _ _ _
  | .linkLoss _ | .moduleStart _ | .spdmRequest _ | .manifestRead _ | .rangeEntryInstall _ _ _
  | .translationInvalidate _ | .pageMigration _ _ _ | .pageMigrationCopyDone _ | .serviceMarkingChange _ _
  | .hostCxlMemRead _ _ | .hostCxlMemWrite _ _ | .peerAccessArrival _ _ | .registerWrite _
  | .staticPortAccess _ | .retentionExit _ _ => none

/-- The words of a well-formed operation, with the stop bit clear (R59-R66); a row that is a step of the machine has
no words. -/
def encode : Instr → List Word32
  | .br off => [word1 0x01 off.toNat]
  | .brp p neg off => [word1 0x02 (p.toNat * 2 ^ 20 + neg.toNat * 2 ^ 19 + off.toNat)]
  | .call off => [word1 0x03 off.toNat]
  | .ret => [word1 0x04 0]
  | .jmps a link => [word1 0x05 (a.toNat * 2 ^ 18 + link.toNat * 2 ^ 17)]
  | .loop cnt fin => [word1 0x08 (cnt.toNat * 2 ^ 12 + fin.toNat)]
  | .loopv a fin => [word1 0x09 (a.toNat * 2 ^ 18 + fin.toNat)]
  | .loops dir lane ex age fin => [word1 0x0A (dir.code * 2 ^ 22 + lane.toNat * 2 ^ 18 + ex.toNat * 2 ^ 14 + age.code * 2 ^ 12 + fin.toNat)]
  | .leave => [word1 0x0B 0]
  | .walkn p w sc => [word1 0x0C (p.toNat * 2 ^ 20 + w.toNat * 2 ^ 16 + sc.code * 2 ^ 14)]
  | .align target => [word1 0x10 (target.toNat / 2 ^ 31), BitVec.ofNat 32 (target.toNat % 2 ^ 31)]
  | .hold i => [word1 0x11 i.toNat]
  | .waita a b cmp w64 hm h off => [word1 0x12 (a.toNat * 2 ^ 18 + b.toNat * 2 ^ 12 + cmp.code * 2 ^ 10 + w64.toNat * 512 + hm.toNat * 256 + h.toNat * 4),
      BitVec.ofNat 32 (off.toNat * 2 ^ 11)]
  | .bari bar sc arr bedw bedh b => [word1 0x13 (bar.toNat * 2 ^ 18 + sc.code * 2 ^ 16 + arr.toNat),
      BitVec.ofNat 32 (bedw.toNat * 2 ^ 28 + bedh.toNat * 2 ^ 25 + b.toNat * 2 ^ 19)]
  | .bara bar => [word1 0x14 bar.toNat]
  | .barw hm ph h bar => [word1 0x15 (hm.toNat * 2 ^ 23 + ph.toNat * 2 ^ 22 + h.toNat * 2 ^ 16 + bar.toNat)]
  | .fence sc => [word1 0x16 sc.code]
  | .trap code => [word1 0x18 code.toNat]
  | .sysc code => [word1 0x19 code.toNat]
  | .eret => [word1 0x1A 0]
  | .lease pulses dur cap => [word1 0x20 (pulses.toNat * 2 ^ 19 + dur.toNat), BitVec.ofNat 32 (cap.toNat * 2 ^ 11)]
  | .mark a tag => [word1 0x21 (a.toNat * 2 ^ 18 + tag.toNat)]
  | .savept item a => [word1 0x22 (item.toNat * 2 ^ 20 + a.toNat * 2 ^ 12)]
  | .ovl page frame bar => [word1 0x23 (page.toNat * 2 ^ 12 + frame.toNat * 128 + bar.toNat)]
  | .add d a b => encSR 0x01 d.toNat a.toNat b.toNat 0
  | .sub d a b => encSR 0x02 d.toNat a.toNat b.toNat 0
  | .mul d a b => encSR 0x03 d.toNat a.toNat b.toNat 0
  | .mulh d a b => encSR 0x04 d.toNat a.toNat b.toNat 0
  | .mulhu d a b => encSR 0x05 d.toNat a.toNat b.toNat 0
  | .and d a b => encSR 0x06 d.toNat a.toNat b.toNat 0
  | .or d a b => encSR 0x07 d.toNat a.toNat b.toNat 0
  | .xor d a b => encSR 0x08 d.toNat a.toNat b.toNat 0
  | .andn d a b => encSR 0x09 d.toNat a.toNat b.toNat 0
  | .shl d a b => encSR 0x0A d.toNat a.toNat b.toNat 0
  | .shr d a b => encSR 0x0B d.toNat a.toNat b.toNat 0
  | .sar d a b => encSR 0x0C d.toNat a.toNat b.toNat 0
  | .rol d a b => encSR 0x0D d.toNat a.toNat b.toNat 0
  | .min d a b => encSR 0x0E d.toNat a.toNat b.toNat 0
  | .max d a b => encSR 0x0F d.toNat a.toNat b.toNat 0
  | .minu d a b => encSR 0x10 d.toNat a.toNat b.toNat 0
  | .maxu d a b => encSR 0x11 d.toNat a.toNat b.toNat 0
  | .clz d a => encSR 0x12 d.toNat a.toNat 0 0
  | .popc d a => encSR 0x13 d.toNat a.toNat 0 0
  | .extb d a b w => encSR 0x14 d.toNat a.toNat b.toNat w.toNat
  | .insb d a b w => encSR 0x15 d.toNat a.toNat b.toNat w.toNat
  | .sel d a b p => encSR 0x16 d.toNat a.toNat b.toNat p.toNat
  | .addi d a i => encSI 0x18 d.toNat a.toNat i.toNat
  | .andi d a i => encSI 0x19 d.toNat a.toNat i.toNat
  | .ori d a i => encSI 0x1A d.toNat a.toNat i.toNat
  | .xori d a i => encSI 0x1B d.toNat a.toNat i.toNat
  | .shli d a h => encSI 0x1C d.toNat a.toNat h.toNat
  | .shri d a h => encSI 0x1D d.toNat a.toNat h.toNat
  | .sari d a h => encSI 0x1E d.toNat a.toNat h.toNat
  | .li d i => [word1 0x20 (d.toNat * 2 ^ 18 + i.toNat / 2 ^ 31), BitVec.ofNat 32 (i.toNat % 2 ^ 31)]
  | .lih d i => [word1 0x21 (d.toNat * 2 ^ 18 + i.toNat / 2 ^ 31), BitVec.ofNat 32 (i.toNat % 2 ^ 31)]
  | .cmpeq d a b => encSR 0x24 d.toNat a.toNat b.toNat 0
  | .cmpne d a b => encSR 0x25 d.toNat a.toNat b.toNat 0
  | .cmplt d a b => encSR 0x26 d.toNat a.toNat b.toNat 0
  | .cmple d a b => encSR 0x27 d.toNat a.toNat b.toNat 0
  | .cmpltu d a b => encSR 0x28 d.toNat a.toNat b.toNat 0
  | .cmpleu d a b => encSR 0x29 d.toNat a.toNat b.toNat 0
  | .cmpeqi d a i => encSI 0x2A d.toNat a.toNat i.toNat
  | .cmplti d a i => encSI 0x2B d.toNat a.toNat i.toNat
  | .pand d a b => encSR 0x2C d.toNat a.toNat b.toNat 0
  | .por d a b => encSR 0x2D d.toNat a.toNat b.toNat 0
  | .pxor d a b => encSR 0x2E d.toNat a.toNat b.toNat 0
  | .pnot d a => encSR 0x2F d.toNat a.toNat 0 0
  | .movs d id => encSI 0x30 d.toNat 0 id.toNat
  | .movt a id => encSI 0x31 0 a.toNat id.toNat
  | .movp a b => encSR 0x32 0 a.toNat b.toNat 0
  | .movps d => encSR 0x33 d.toNat 0 0 0
  | .fadd d a b rm => encSR 0x38 d.toNat a.toNat b.toNat rm.code
  | .fsub d a b rm => encSR 0x39 d.toNat a.toNat b.toNat rm.code
  | .fmul d a b rm => encSR 0x3A d.toNat a.toNat b.toNat rm.code
  | .ffma d a b x rm => encSR 0x3B d.toNat a.toNat b.toNat x.toNat ++ [BitVec.ofNat 32 rm.code]
  | .fcmplt d a b => encSR 0x3C d.toNat a.toNat b.toNat 0
  | .fcmpeq d a b => encSR 0x3D d.toNat a.toNat b.toNat 0
  | .fcvti d a w64 uns sat rm => encSR 0x3E d.toNat a.toNat 0 (w64.toNat * 32 + uns.toNat * 16 + sat.toNat * 8 + rm.code)
  | .fcvtf d a w64 uns rm => encSR 0x3F d.toNat a.toNat 0 (w64.toNat * 32 + uns.toNat * 16 + rm.code)
  | .vadd f => encArith 0x01 f
  | .vsub f => encArith 0x02 f
  | .vmul f => encArith 0x03 f
  | .vfma f => encArith 0x04 f
  | .vmin f => encBin 0x05 f
  | .vmax f => encBin 0x06 f
  | .vabs f => encUn 0x07 f
  | .vneg f => encUn 0x08 f
  | .vand f => encBin 0x09 f
  | .vor f => encBin 0x0A f
  | .vxor f => encBin 0x0B f
  | .vshl f => encBin 0x0C f
  | .vshr f => encBin 0x0D f
  | .vsar f => encBin 0x0E f
  | .vsel f => encBin 0x0F f
  | .vcmpeq f => encBin 0x10 f
  | .vcmplt f => encBin 0x11 f
  | .vcmple f => encBin 0x12 f
  | .vmov fmt dst a r => encV 0x13 fmt.code dst.code 0 a.code 0 r.toNat
  | .vbcs fmt dst a r => encV 0x14 fmt.code dst.code 0 a.toNat 0 r.toNat
  | .viota fmt dst a b r => encV 0x15 fmt.code dst.code 0 a.toNat b.toNat r.toNat
  | .vmadw fmt sat sel dst a b r => encV 0x16 fmt.code dst.code (sat.toNat * 16 + sel.toNat) a.code b.code r.toNat
  | .vmulh f => encBin 0x17 f
  | .vcvt f => encCvt 0x18 f
  | .vcvtef f => encCvt 0x19 f
  | .vsacc fmt rm sat uni dst a b r => encV 0x1A fmt.code dst.code (sat.toNat * 16 + uni.toNat * 8 + rm.code) a.code b.code r.toNat
  | .vrng fmt dst r => encV 0x1B fmt.code dst.code 0 0 0 r.toNat
  | .vrotr f => encShift 0x20 f
  | .vrotc f => encShift 0x21 f
  | .vbcr f => encShift 0x22 f
  | .vbcc f => encShift 0x23 f
  | .vredr f => encRed 0x24 f
  | .vredc f => encRed 0x25 f
  | .vshfr f => encShift 0x26 f
  | .vshfc f => encShift 0x27 f
  | .vtrn fmt dst a r => encV 0x28 fmt.code dst.code 0 a.code 0 r.toNat
  | .vpart fmt dst a b r => encV 0x30 fmt.code dst.code 0 a.code b.toNat r.toNat
  | .vcnt fmt d a r => encV 0x31 fmt.code d.toNat 0 a.code 0 r.toNat
  | .vargm fmt mn d a r => encV 0x32 fmt.code d.toNat mn.toNat a.code 0 r.toNat
  | .dnorm fmt g d a r => encV 0x40 fmt.code d.toNat g.code a.code 0 r.toNat
  | .dcvt fmt g dst a r => encV 0x41 fmt.code dst.code g.code a.toNat 0 r.toNat
  | .ddot f => encTri 0x42 f
  | .ddotn f => encTri 0x43 f
  | .dscl f => encPair 0x44 f
  | .dneg f => encPair 0x45 f
  | .dadd f => encTri 0x46 f
  | .dsub f => encTri 0x47 f
  | .dmix f => encTri 0x48 f
  | .dproj f => encTri 0x49 f
  | .dsim g dst a b r => encV 0x4A 0 dst.code g.code a.toNat b.toNat r.toNat
  | .dzt g p a r => encV 0x4B 0 p.toNat g.code a.toNat 0 r.toNat
  | .dmov f => encPair 0x4C f
  | .dgetn f => encPair 0x4D f
  | .dsetn f => encPair 0x4E f
  | .frcp f => encFun 0x01 f
  | .frsq f => encFun 0x02 f
  | .fsqrt f => encFun 0x03 f
  | .fexp2 f => encFun 0x04 f
  | .flog2 f => encFun 0x05 f
  | .fsin f => encFun 0x06 f
  | .fcos f => encFun 0x07 f
  | .ftanh f => encFun 0x08 f
  | .fsigm f => encFun 0x09 f
  | .fdiv fmt rm dst a b r => encV 0x0A fmt.code dst.code rm.code a.code b.code r.toNat
  | .sdiv f => encSdiv 0x10 f
  | .sdivu f => encSdiv 0x11 f
  | .srem f => encSdiv 0x12 f
  | .sremu f => encSdiv 0x13 f
  | .ldv v m => encM 0x01 v.code 0 m
  | .stv v m => encM 0x02 v.code 0 m
  | .lds sx size sb m => encM 0x03 (sbsc sb 0) (sx.toNat * 4 + size.code) m
  | .sts size sb m => encM 0x04 (sbsc sb 0) size.code m
  | .ldg v m => encM 0x05 v.code 0 m
  | .stg v m => encM 0x06 v.code 0 m
  | .ldd g d m => encM 0x07 d.toNat g.code m
  | .std g d m => encM 0x08 d.toNat g.code m
  | .ldwb h sb sc m => encM 0x09 (sbsc sb sc) h.toNat m
  | .aadd w64 sb sc m => encM 0x10 (sbsc sb sc) (w64.toNat * 4) m
  | .afadd w64 sb sc m => encM 0x11 (sbsc sb sc) (w64.toNat * 4) m
  | .amin w64 sb sc m => encM 0x12 (sbsc sb sc) (w64.toNat * 4) m
  | .amax w64 sb sc m => encM 0x13 (sbsc sb sc) (w64.toNat * 4) m
  | .aminu w64 sb sc m => encM 0x14 (sbsc sb sc) (w64.toNat * 4) m
  | .amaxu w64 sb sc m => encM 0x15 (sbsc sb sc) (w64.toNat * 4) m
  | .aand w64 sb sc m => encM 0x16 (sbsc sb sc) (w64.toNat * 4) m
  | .aor w64 sb sc m => encM 0x17 (sbsc sb sc) (w64.toNat * 4) m
  | .axor w64 sb sc m => encM 0x18 (sbsc sb sc) (w64.toNat * 4) m
  | .axch w64 sb sc m => encM 0x19 (sbsc sb sc) (w64.toNat * 4) m
  | .acas w64 sb sc m => encM 0x1A (sbsc sb sc) (w64.toNat * 4) m
  | .aaddRem w64 sb bar m => encM 0x10 (sbsc sb bar) (8 + w64.toNat * 4) m
  | .afaddRem w64 sb bar m => encM 0x11 (sbsc sb bar) (8 + w64.toNat * 4) m
  | .aminRem w64 sb bar m => encM 0x12 (sbsc sb bar) (8 + w64.toNat * 4) m
  | .amaxRem w64 sb bar m => encM 0x13 (sbsc sb bar) (8 + w64.toNat * 4) m
  | .aminuRem w64 sb bar m => encM 0x14 (sbsc sb bar) (8 + w64.toNat * 4) m
  | .amaxuRem w64 sb bar m => encM 0x15 (sbsc sb bar) (8 + w64.toNat * 4) m
  | .aandRem w64 sb bar m => encM 0x16 (sbsc sb bar) (8 + w64.toNat * 4) m
  | .aorRem w64 sb bar m => encM 0x17 (sbsc sb bar) (8 + w64.toNat * 4) m
  | .axorRem w64 sb bar m => encM 0x18 (sbsc sb bar) (8 + w64.toNat * 4) m
  | .axchRem w64 sb bar m => encM 0x19 (sbsc sb bar) (8 + w64.toNat * 4) m
  | .acasRem w64 sb bar m => encM 0x1A (sbsc sb bar) (8 + w64.toNat * 4) m
  | .ldr acq sb bar m => encM 0x20 (sbsc sb bar) (acqCode acq) m
  | .str rel sb bar m => encM 0x21 (sbsc sb bar) (acqCode rel) m
  | .shcpy sb m => encM 0x22 (sbsc sb 0) 0 m
  | .publ bar sc m => encM 0x23 bar.toNat sc.code m
  | .shcan sa r => [word1 0x24 (sa.toNat * 2 ^ 18), BitVec.ofNat 32 r.toNat]
  | .shqry sa sb r => [word1 0x25 (sa.toNat * 2 ^ 18 + sb.toNat * 2 ^ 12), BitVec.ofNat 32 r.toNat]
  | .mma f => encMma 0x01 f
  | .mmaz f => encMma 0x02 f
  | .mseq f => encX 0x03 f.fa.code f.fb.code f.acc.toNat
      (f.ksel.toNat * 128 + f.dmode.code * 32 + f.scl.code * 8 + f.zrun.toNat * 4) f.av.code (f.sp.toNat * 256) f.rstep.toNat
  | .mzero acc i32 r => encX 0x04 0 0 acc.toNat i32.toNat 0 0 r.toNat
  | .mrd f => encMove 0x05 f
  | .mwr f => encMove 0x06 f
  | .kset bank side v r => [word1 0x01 (bank.toNat * 2 ^ 23 + side.toNat * 2 ^ 22 + v.code * 256 + r.toNat)]
  | .kone bank => [word1 0x02 (bank.toNat * 2 ^ 23)]
  | .act st bk row step => [word1 0x01 (st.toNat * 2 ^ 22 + bk.toNat * 2 ^ 18 + row.toNat * 64 + step.toNat)]
  | .rd f => encCol 0x02 f
  | .wr f => encCol 0x03 f
  | .rda f => encCol 0x04 f
  | .wra f => encCol 0x05 f
  | .pre st bk step => [word1 0x06 (st.toNat * 2 ^ 22 + bk.toNat * 2 ^ 18 + step.toNat)]
  | .prea st => [word1 0x07 (st.toNat * 2 ^ 22)]
  | .ref st => [word1 0x08 (st.toNat * 2 ^ 22)]
  | .refb st bk step => [word1 0x09 (st.toNat * 2 ^ 22 + bk.toNat * 2 ^ 18 + step.toNat)]
  | .sdrv g o => encN 0x01 g o 0 0 0 0
  | .stap g o st => encN 0x02 g o st.code.1 st.code.2.1 st.code.2.2 0
  | .sfwd g o st od ol => encN 0x03 g o st.code.1 st.code.2.1 (od.code * 16 + ol.toNat) 0
  | .seos g => encN 0x04 g .none 0 0 0 0
  | .sred g o st od ol rf => encN 0x05 g o st.code.1 st.code.2.1 (od.code * 16 + ol.toNat) rf.toNat
  | .bundleIssue _ | .exposedResultLands _ | .ovlLoadComplete _ | .ldwbComplete _ | .mmaPass1Start _
  | .mmaResultReady _ | .mseqStepStart _ | .vaultLanding _ | .wrSample _ | .prechargePoint _ _
  | .refreshComplete _ _ | .drefl _ | .mpRefreshDeadline _ _ | .bandChange _ _ | .refreshGuardRefresh _ _
  | .sidePortServe _ _ | .dynamicAccessEnd _ _ | .pageWalkComplete _ | .replicaCommit _ _ | .publishSwap _
  | .shuttleBeatIssue _ | .shuttleBeatComplete _ | .barrierPhaseComplete _ _ | .barrierCompletionSeen _ _
  | .barwResume _ | .waitaReadReturn _ | .streamValueArrives _ _ _ _ _ _ | .holdRelease _ | .holdto _
  | .plotOverdue _ | .plotStopArrival _ | .preemptRequest _ _ | .forcedStop _ | .plotResume _ _ _
  | .retentionEntry _ | .plotArming _ _ _ | .startPulse _ | .tileFreed _ | .doorbell _ _ | .ringRead _
  | .queueEnable _ _ | .launch _ _ _ | .copy _ _ _ | .signal _ _ _ _ _ | .wait _ _ _ _ _ _ | .waitSatisfied _
  | .waitTimeout _ | .callib _ _ _ | .retib _ | .graph _ _ _ _ _ | .fencek _ | .markk _ _
  | .graphNodeComplete _ _ | .timedNodeOffset _ _ | .queuePatienceExpiry _ | .irqAgeExpiry _ | .queueReset _
  | .queueResetComplete _ | .patternChange _ _ | .splitChange _ _ | .droop _ | .droopFloorEnd _ | .leaseGrant _
  | .leaseDeny _ _ | .leaseDurExpiry _ | .leaseCapReached _ | .supplyLoss | .pfailArrival _
  | .pfailHoldTimeout _ | .keepStoreSave | .pcSample _ | .counterSnapshot _ | .linkTraining _ _ _ _ _
  | .linkLoss _ | .moduleStart _ | .spdmRequest _ | .manifestRead _ | .rangeEntryInstall _ _ _
  | .translationInvalidate _ | .pageMigration _ _ _ | .pageMigrationCopyDone _ | .serviceMarkingChange _ _
  | .hostCxlMemRead _ _ | .hostCxlMemWrite _ _ | .peerAccessArrival _ _ | .registerWrite _
  | .staticPortAccess _ | .retentionExit _ _ => []


/-! ### The words of the opcode table -/

/-- The first operation that one of the classes gives for the words: an opcode value stands for other operations in
other classes, and the table's words carry no class (DESIGN CHOICE, log entry 5: the order S, C, D, K, then the
classes of two words). -/
def firstClass (w1 w2 : Word32) : List Cls → Option Instr
  | [] => none
  | cl :: r =>
    match decodeOp 48 cl w1 w2 with
    | .ok i => some i
    | .error _ => firstClass w1 w2 r

/-- The classes in the order in which a table word is read (DESIGN CHOICE, log entry 5). -/
def tableClasses : List Cls := [.s, .c, .d, .k, .v, .f, .m, .x, .n]

/-- The instruction the decoder reads from an instruction whose bits are w, bit 0 the least significant bit of the
first word; the stop bits say nothing about the operation and are not read. -/
def decodeTableWord (nbits w : Nat) : Option Instr :=
  firstClass (BitVec.ofNat 32 (w % 2 ^ nbits)) (BitVec.ofNat 32 (w % 2 ^ nbits / 2 ^ 32)) tableClasses

end Sys2Proof
end

