-- ==== Sys2Proof/Machine/Flags.lean ====
section
/-! DEFINITION. The sticky flags of FLAGS[7:0] (11 R201, 12 R236): one constant a flag; an instruction ORs the flags
it raises. -/
namespace Sys2Proof.Machine

/-- The flags an operation raises, in the order of R201: ZD, RN, SAT, NX, UF, OF, DZ, NV. -/
abbrev Flags := BitVec 8

def fNone : Flags := 0x00
def fNV : Flags := 0x01
def fDZ : Flags := 0x02
def fOF : Flags := 0x04
def fUF : Flags := 0x08
def fNX : Flags := 0x10
def fSAT : Flags := 0x20
def fRN : Flags := 0x40
def fZD : Flags := 0x80

/-- A flag when a condition holds. -/
def fIf (b : Bool) (f : Flags) : Flags := if b then f else fNone

end Sys2Proof.Machine
end

