-- ==== Sys2Proof/Machine/Num.lean ====
section
/-! DEFINITION. Exact numbers and the one rounding rule of 12_number_formats.md: values of the formats of R216 to
R223, round_fmt (R227-R232), conversion into integers and scales (R220, R221, R233), and the exact sums and products
that the arithmetic instructions round once. -/
namespace Sys2Proof.Machine

/-- An exact value: (-1)^neg m 2^e, with st saying that a positive amount below one unit of 2^e is added to the
magnitude; an infinity; or a NaN with its sign, its payload held left-aligned in 22 bits, and whether it signals. -/
inductive Num where
  | fin (neg : Bool) (m : Nat) (e : Int) (st : Bool)
  | inf (neg : Bool)
  | nan (neg : Bool) (payload : Nat) (sig : Bool)
deriving DecidableEq, Repr

/-- Zero of a sign. -/
def Num.zero (neg : Bool) : Num := .fin neg 0 0 false
/-- The default NaN (R218). -/
def Num.dnan : Num := .nan false 0 false
def Num.isNan : Num → Bool
  | .nan _ _ _ => true
  | _ => false
def Num.isSNan : Num → Bool
  | .nan _ _ s => s
  | _ => false
def Num.isInf : Num → Bool
  | .inf _ => true
  | _ => false
def Num.isZero : Num → Bool
  | .fin _ m _ st => m == 0 && !st
  | _ => false
def Num.neg : Num → Bool
  | .fin n _ _ _ => n
  | .inf n => n
  | .nan n _ _ => n
def Num.negate : Num → Num
  | .fin n m e st => .fin (!n) m e st
  | .inf n => .inf (!n)
  | .nan n p s => .nan (!n) p s
def Num.abs : Num → Num
  | .fin _ m e st => .fin false m e st
  | .inf _ => .inf false
  | .nan _ p s => .nan false p s
/-- Multiplied by 2^k. -/
def Num.scale (k : Int) : Num → Num
  | .fin n m e st => .fin n m (e + k) st
  | x => x
/-- An integer. -/
def Num.ofInt (i : Int) : Num := .fin (decide (i < 0)) i.natAbs 0 false
/-- i 2^k. -/
def Num.ofScaled (i : Int) (k : Int) : Num := .fin (decide (i < 0)) i.natAbs k false

/-- The figures of a binary float format (R217): exponent and significand widths, whether its all-ones exponent
holds infinities and NaNs, and whether it is E4M3, whose only NaNs are 0x7F and 0xFF. -/
structure FloatFmt where
  eb : Nat
  mb : Nat
  ieee : Bool
  e4m3 : Bool
deriving DecidableEq, Repr

def FloatFmt.bias (f : FloatFmt) : Int := 2 ^ (f.eb - 1) - 1
def FloatFmt.bits (f : FloatFmt) : Nat := f.eb + f.mb + 1
/-- The largest exponent field of a finite value. -/
def FloatFmt.emax (f : FloatFmt) : Nat := if f.ieee then 2 ^ f.eb - 2 else 2 ^ f.eb - 1
/-- The encoding of the largest finite magnitude (R217). -/
def FloatFmt.maxCode (f : FloatFmt) : Nat :=
  if f.ieee then (2 ^ f.eb - 1) * 2 ^ f.mb - 1 else if f.e4m3 then 0x7E else 2 ^ (f.eb + f.mb) - 1
/-- The sign bit above a magnitude. -/
def FloatFmt.signed (f : FloatFmt) (neg : Bool) (mag : Nat) : Nat := (if neg then 2 ^ (f.eb + f.mb) else 0) + mag
def FloatFmt.infCode (f : FloatFmt) : Nat := (2 ^ f.eb - 1) * 2 ^ f.mb

def fp32 : FloatFmt := ⟨8, 23, true, false⟩
def bf16 : FloatFmt := ⟨8, 7, true, false⟩
def fp16 : FloatFmt := ⟨5, 10, true, false⟩

/-- The binary float formats, codes 0 to 7 (R217). -/
def floatOf : Fmt → Option FloatFmt
  | .f32 => some fp32
  | .bf16 => some bf16
  | .f16 => some fp16
  | .e5m2 => some ⟨5, 2, true, false⟩
  | .e4m3 => some ⟨4, 3, false, true⟩
  | .e3m2 => some ⟨3, 2, false, false⟩
  | .e2m3 => some ⟨2, 3, false, false⟩
  | .e2m1 => some ⟨2, 1, false, false⟩
  | _ => none

/-- Slot width of an element in a cell (R216, R254): 6-bit formats stand one per byte. -/
def fmtWidth : Fmt → Nat
  | .f32 | .i32 | .u32 => 32
  | .bf16 | .f16 | .i16 | .q15 => 16
  | .e2m1 | .i4 | .u4 => 4
  | _ => 8

/-- Width and signedness of the integer formats (R219). -/
def intOf : Fmt → Option (Nat × Bool)
  | .i8 => some (8, true)
  | .u8 => some (8, false)
  | .i4 => some (4, true)
  | .u4 => some (4, false)
  | .i16 => some (16, true)
  | .i32 => some (32, true)
  | .u32 => some (32, false)
  | _ => none

/-- The low w bits of x read as a two's-complement or unsigned integer. -/
def intVal (w : Nat) (signed : Bool) (x : Nat) : Int :=
  let y := x % 2 ^ w
  if signed && 2 ^ (w - 1) ≤ y then (y : Int) - 2 ^ w else y

/-- The low w bits of an integer. -/
def lowBits (w : Nat) (i : Int) : Nat := (i % 2 ^ w).toNat

/-- The value of an encoding of a binary float (R217, R218). -/
def FloatFmt.value (f : FloatFmt) (x : Nat) : Num :=
  let neg := x / 2 ^ (f.eb + f.mb) % 2 == 1
  let ex := x / 2 ^ f.mb % 2 ^ f.eb
  let m := x % 2 ^ f.mb
  if f.ieee && ex == 2 ^ f.eb - 1 then
    if m == 0 then .inf neg
    else .nan neg (m % 2 ^ (f.mb - 1) * 2 ^ (23 - f.mb)) (m / 2 ^ (f.mb - 1) % 2 == 0)
  else if f.e4m3 && ex == 15 && m == 7 then .nan neg 0 false
  else if ex == 0 then .fin neg m (1 - f.bias - f.mb) false
  else .fin neg (2 ^ f.mb + m) ((ex : Int) - f.bias - f.mb) false

/-- The value of an element of any format but the bit-plane codes, from its slot bits (R217-R221). -/
def elemValue (fmt : Fmt) (x : Nat) : Num :=
  match floatOf fmt with
  | some f => f.value (x % 2 ^ f.bits)
  | none =>
    match intOf fmt with
    | some (w, s) => Num.ofInt (intVal w s x)
    | none =>
      match fmt with
      | .q15 => Num.ofScaled (let c := intVal 16 true x; if c = -32768 then -32767 else c) (-15)
      | _ => if x % 256 = 255 then .dnan else .fin false 1 ((x % 256 : Nat) - 127) false

/-- Rounds (m + st) 2^e to a multiple of 2^q by the mode: the multiple, and whether it is inexact. Sources with st
hold m to at least two places below 2^q. draw is the 32-bit draw of R226. -/
def roundAt (rm : Rm) (neg : Bool) (draw m : Nat) (e q : Int) (st : Bool) : Nat × Bool :=
  let k := (q - e).toNat
  let n := m * 2 ^ (e - q).toNat / 2 ^ k
  let r := m * 2 ^ (e - q).toNat % 2 ^ k
  let inexact := r != 0 || st
  let gt := 2 ^ k < 2 * r || (2 * r == 2 ^ k && st)
  let eq := 2 * r == 2 ^ k && !st
  let up := match rm with
    | .rne => gt || (eq && n % 2 == 1)
    | .rz => false
    | .ru => inexact && !neg
    | .rd => inexact && neg
    | .rna => gt || eq
    | .sr => 2 ^ 32 ≤ 2 ^ 32 * r / 2 ^ k + draw % 2 ^ 32
    | .dyn => gt || (eq && n % 2 == 1)
  (if up then n + 1 else n, inexact)

/-- The exponent of the unit in the last place of a magnitude in a format, its exponent range unbounded. -/
def unitExp (f : FloatFmt) (m : Nat) (e : Int) : Int := (Nat.log2 m : Int) + e - f.mb

/-- The exponent of the smallest normal value. -/
def FloatFmt.emin (f : FloatFmt) : Int := 1 - f.bias

/-- tiny (R227): rounded to the format's precision with an unbounded exponent, below the smallest normal value; a
stochastic rounding judges the exact value. -/
def tiny (f : FloatFmt) (rm : Rm) (neg : Bool) (m : Nat) (e : Int) (st : Bool) : Bool :=
  if rm == .sr then (Nat.log2 m : Int) + e < f.emin
  else
    let q := unitExp f m e
    let n := (roundAt rm neg 0 m e q st).1
    (Nat.log2 n : Int) + q < f.emin

/-- overflow (R228). -/
def overflow (f : FloatFmt) (rm : Rm) (sat neg : Bool) : Nat × Flags :=
  let max := f.signed neg f.maxCode
  let top := f.signed neg (if f.ieee then f.infCode else 0x7F)
  if !f.ieee && !f.e4m3 then (max, fOF ||| fNX ||| fSAT)
  else if sat then (max, fOF ||| fNX ||| fSAT)
  else match rm with
    | .rz => (max, fOF ||| fNX)
    | .ru => (if neg then max else top, fOF ||| fNX)
    | .rd => (if neg then top else max, fOF ||| fNX)
    | _ => (top, fOF ||| fNX)

/-- The encoding of n 2^q, where n has at most mb + 1 bits or is 2^(mb + 1), and whether it is above the largest
finite value. -/
def encodeFin (f : FloatFmt) (n : Nat) (q : Int) : Nat × Bool :=
  let (n, q) := if n = 2 ^ (f.mb + 1) then (2 ^ f.mb, q + 1) else (n, q)
  if n < 2 ^ f.mb then (n, false)
  else
    let ex := (q + f.mb + f.bias).toNat
    let code := ex * 2 ^ f.mb + (n - 2 ^ f.mb)
    (code, f.maxCode < code)

/-- inf_to (R231); a widening with sat follows this table too (DEDUCED, log entry 74). -/
def infTo (f : FloatFmt) (sat neg : Bool) : Nat × Flags :=
  if !f.ieee && !f.e4m3 then (f.signed neg f.maxCode, fSAT)
  else if sat then (f.signed neg f.maxCode, fSAT)
  else if f.ieee then (f.signed neg f.infCode, fNone)
  else (f.signed neg 0x7F, fNV)

/-- nan_to (R231, R232), without the flag of a signalling source. -/
def nanTo (f : FloatFmt) (neg : Bool) (payload : Nat) : Nat × Flags :=
  if f.ieee then
    (f.signed neg (f.infCode + 2 ^ (f.mb - 1) + payload / 2 ^ (23 - f.mb)), fNone)
  else if f.e4m3 then (f.signed neg 0x7F, fNone)
  else (0, fNV)

/-- round_fmt (R227): the encoding and the flags raised; a signalling NaN sets NV (R231, R235). -/
def roundFmt (f : FloatFmt) (rm : Rm) (sat : Bool) (draw : Nat) (x : Num) : Nat × Flags :=
  match x with
  | .nan neg p sig => let r := nanTo f neg p; (r.1, r.2 ||| fIf sig fNV)
  | .inf neg => infTo f sat neg
  | .fin neg m e st =>
    if m = 0 then (f.signed neg 0, fNone)
    else
      let u := unitExp f m e
      let q := if u < f.emin - f.mb then f.emin - f.mb else u
      let r := roundAt rm neg draw m e q st
      let c := encodeFin f r.1 q
      if c.2 then overflow f rm sat neg
      else (f.signed neg c.1, fIf r.2 fNX ||| fIf (r.2 && tiny f rm neg m e st) fUF)

/-- Rounds to an integer by the mode: the integer and whether it is inexact. -/
def roundToInt (rm : Rm) (draw : Nat) (neg : Bool) (m : Nat) (e : Int) (st : Bool) : Int × Bool :=
  let r := roundAt rm neg draw m e 0 st
  (if neg then -(r.1 : Int) else r.1, r.2)

/-- The bounds of a w-bit integer format (R219). -/
def intMin (w : Nat) (signed : Bool) : Int := if signed then -(2 ^ (w - 1)) else 0
def intMax (w : Nat) (signed : Bool) : Int := if signed then 2 ^ (w - 1) - 1 else 2 ^ w - 1
/-- The nearest value of a range. -/
def clampInt (lo hi i : Int) : Int := if i < lo then lo else if hi < i then hi else i

/-- A float or fixed-point value into an integer format (R231, R233). -/
def floatToInt (w : Nat) (signed : Bool) (rm : Rm) (sat : Bool) (draw : Nat) (x : Num) : Nat × Flags :=
  match x with
  | .nan _ _ _ => (0, fNV)
  | .inf neg =>
    if sat then (lowBits w (if neg then intMin w signed else intMax w signed), fSAT) else (0, fNV)
  | .fin neg m e st =>
    let r := roundToInt rm draw neg m e st
    let c := clampInt (intMin w signed) (intMax w signed) r.1
    if c = r.1 then (lowBits w r.1, fIf r.2 fNX)
    else if sat then (lowBits w c, fSAT ||| fIf r.2 fNX)
    else (lowBits w r.1, fOF ||| fIf r.2 fNX)

/-- An integer into an integer format (R233): a narrowing clamps with SAT or keeps the low bits with no flag. -/
def intToInt (w : Nat) (signed sat : Bool) (i : Int) : Nat × Flags :=
  let c := clampInt (intMin w signed) (intMax w signed) i
  if sat && c != i then (lowBits w c, fSAT) else (lowBits w i, fNone)

/-- A value into Q1.15 (R220, R231). -/
def toQ15 (rm : Rm) (draw : Nat) (x : Num) : Nat × Flags :=
  match x with
  | .nan _ _ _ => (0, fNV)
  | .inf neg => (lowBits 16 (if neg then -32767 else 32767), fSAT)
  | .fin neg m e st =>
    let r := roundToInt rm draw neg m (e + 15) st
    let c := clampInt (-32767) 32767 r.1
    (lowBits 16 c, fIf r.2 fNX ||| fIf (c != r.1) fSAT)

/-- A value into E8M0 (R221); the rounding mode and the sign are ignored. -/
def toE8m0 (x : Num) : Nat × Flags :=
  match x with
  | .nan _ _ sig => (0xFF, fIf sig fNV)
  | .inf _ => (0xFE, fSAT)
  | .fin _ m e st =>
    if m = 0 then (0x00, fUF)
    else
      let f := (Nat.log2 m : Int) + e
      if f < -127 then (0x00, fUF ||| fNX)
      else if 127 < f then (0xFE, fSAT ||| fNX)
      else ((f + 127).toNat, fIf (m != 2 ^ Nat.log2 m || st) fNX)

/-- One element converted from a source format into a destination format (R227-R234, VCVT and the Shuttle). A 32-bit
integer overflows FP16 by R227 and R228 (DEDUCED, log entry 73). -/
def convert (src dst : Fmt) (rm : Rm) (sat : Bool) (draw : Nat) (bits : Nat) : Nat × Flags :=
  let x := elemValue src bits
  match floatOf dst with
  | some f => roundFmt f rm sat draw x
  | none =>
    match intOf dst with
    | some (w, s) =>
      match intOf src with
      | some (ws, ss) => intToInt w s sat (intVal ws ss bits)
      | none => floatToInt w s rm sat draw x
    | none =>
      match dst with
      | .q15 => toQ15 rm draw x
      | _ => toE8m0 x

/-! ### Exact arithmetic -/

/-- The exact sum of two finite values without st; rd says that an exact zero of opposite signs is -0 (R230). -/
def addFin (rd : Bool) (n1 : Bool) (m1 : Nat) (e1 : Int) (n2 : Bool) (m2 : Nat) (e2 : Int) : Num :=
  let e := if e1 ≤ e2 then e1 else e2
  let a := m1 * 2 ^ (e1 - e).toNat
  let b := m2 * 2 ^ (e2 - e).toNat
  if n1 = n2 then .fin n1 (a + b) e false
  else if b < a then .fin n1 (a - b) e false
  else if a < b then .fin n2 (b - a) e false
  else .fin rd 0 e false

/-- The first NaN in operand order (R235) and the flag of any signalling operand. -/
def firstNan : List Num → Option Num
  | [] => none
  | x :: r => if x.isNan then some x else firstNan r
def anySig (xs : List Num) : Flags := fIf (xs.any Num.isSNan) fNV

/-- A NaN made quiet; its signal has been flagged. -/
def Num.quiet : Num → Num
  | .nan n p _ => .nan n p false
  | x => x

/-- The exact sum, with the special cases of R230, R235 and R261. -/
def addNum (rd : Bool) (x y : Num) : Num × Flags :=
  match firstNan [x, y] with
  | some n => (n.quiet, anySig [x, y])
  | none =>
    match x, y with
    | .inf a, .inf b => if a = b then (.inf a, fNone) else (.dnan, fNV)
    | .inf a, _ => (.inf a, fNone)
    | _, .inf b => (.inf b, fNone)
    | .fin n1 m1 e1 _, .fin n2 m2 e2 _ => (addFin rd n1 m1 e1 n2 m2 e2, fNone)
    | a, _ => (a, fNone)

/-- The exact product (R230, R235). -/
def mulNum (x y : Num) : Num × Flags :=
  match firstNan [x, y] with
  | some n => (n.quiet, anySig [x, y])
  | none =>
    match x, y with
    | .inf a, .inf b => (.inf (a != b), fNone)
    | .inf a, .fin n m _ _ => if m = 0 then (.dnan, fNV) else (.inf (a != n), fNone)
    | .fin n m _ _, .inf b => if m = 0 then (.dnan, fNV) else (.inf (n != b), fNone)
    | .fin n1 m1 e1 _, .fin n2 m2 e2 _ => (.fin (n1 != n2) (m1 * m2) (e1 + e2) false, fNone)
    | a, _ => (a, fNone)

/-- a b + d, exact, NaN operands in the order a, b, d (R261) (DEDUCED, log entry 18). -/
def fmaNum (rd : Bool) (a b d : Num) : Num × Flags :=
  match firstNan [a, b, d] with
  | some n => (n.quiet, anySig [a, b, d])
  | none =>
    let p := mulNum a b
    if p.1.isNan then p else addNum rd p.1 d

/-- The comparison of two values that are not NaNs; st is not read. -/
def ltNum (x y : Num) : Bool :=
  match x, y with
  | .inf a, .inf b => a && !b
  | .inf a, _ => a
  | _, .inf b => !b
  | .fin n1 m1 e1 _, .fin n2 m2 e2 _ =>
    let e := if e1 ≤ e2 then e1 else e2
    let a : Int := (m1 * 2 ^ (e1 - e).toNat : Nat)
    let b : Int := (m2 * 2 ^ (e2 - e).toNat : Nat)
    (if n1 then -a else a) < (if n2 then -b else b)
  | _, _ => false
def eqNum (x y : Num) : Bool := !x.isNan && !y.isNan && !ltNum x y && !ltNum y x

end Sys2Proof.Machine
end

