-- ==== Sys2Proof/Machine/TileTypes.lean ====
section
/-! DEFINITION. The parts of one tile: register files, special registers, sequencer, barrier records, vault records,
matrix engine, and the effects and dynamic work that are under way. -/
namespace Sys2Proof.Machine

/-- A trap that is to be taken: cause code (27 R432), TVAL, and the SKIP mark of 19 R347. -/
structure Trap where
  code : BitVec 8
  tval : BitVec 64
  skip : Bool
deriving DecidableEq, Repr

/-- The register files of a tile (11 R194-R201, 15 R281, 16 R315). -/
structure Regs where
  /-- s0-s63, unlisted 0 -/
  sc : Store 64
  /-- ss0-ss7 (27 R435), unlisted 0 -/
  ss : Store 64
  /-- p0-p15, bit i -/
  preds : BitVec 16
  /-- vector rows 0-767, unlisted 0 -/
  vrow : Store 2048
  /-- accumulator rows, key 64 a + m, unlisted 0 -/
  acc : Store 2048
  /-- accumulator modes, bit a set for I32 -/
  accMode : BitVec 8
  /-- weight-buffer granules, key 1024 H + g, unlisted 0 -/
  wb : Store 512
  /-- direction components, 128 Q1.15 numbers a register, unlisted 0 -/
  dir : Store 2048
  /-- norms, unlisted the zero code 0x8000_0000 -/
  norm : Store 32
  /-- latches, key 2 bank + side (row 0, column 1), byte i scale i; unlisted 127 in every byte -/
  lat : Store 512
  flags : Flags
  /-- flags of remote atomics that have completed (27 R448) -/
  pflags : Flags
  rmode : BitVec 3
  rngKey0 : BitVec 32
  rngKey1 : BitVec 32
  rngCtr : BitVec 64
deriving DecidableEq, Repr

/-- An entry of the loop stack (19 R338). -/
structure LoopEnt where
  start : Nat
  fin : Nat
  count : BitVec 32
  index : BitVec 32
  /-- a stream entry: lane direction, lane, exit predicate and age -/
  stream : Option (Dir × BitVec 4 × BitVec 4 × Nat)
deriving DecidableEq, Repr

/-- A re-issue register: the slot (mask bit of 02 R30), the sc of its last issue and the operation (02 R36). -/
structure ReEnt where
  slot : Nat
  sc : Nat
  op : Instr
deriving DecidableEq, Repr

/-- The condition of a hold point (19 R354, 23 R393). -/
inductive HoldCond where
  | none
  | bar (b : Nat) (phase : Bool)
  | word (va : BitVec 64) (cmp : Cmp) (w64 : Bool) (value : BitVec 64)
deriving DecidableEq, Repr

/-- What a tile waits for (19 R350-R356, 27 R445); addr is the address of the waiting bundle. -/
inductive WaitSt where
  | none
  /-- issues next at sc a -/
  | align (a : Nat)
  | barw (bar : Nat) (phase : Bool) (addr : Nat)
  | waita (va : BitVec 64) (cmp : Cmp) (w64 : Bool) (x : BitVec 64) (addr : Nat)
  /-- a hold point: hold-table index and the condition that is to hold -/
  | hold (idx : Nat) (cond : HoldCond) (addr : Nat)
deriving DecidableEq, Repr

/-- One operation of the matrix engine as it runs: the A rows read at its start, and its B block, scales and mode
(16 R302-R313). -/
structure XOp where
  acc : Nat
  i32 : Bool
  fa : Fmt
  fb : Fmt
  ksel : Nat
  dmode : DMode
  scl : Scl
  half : Bool
  goff : Nat
  /-- occupancy in sc (R314) -/
  occ : Nat
  rows : List Row
deriving DecidableEq, Repr

/-- The running MSEQ: the address of its bundle, its operands, its parameter word and the steps that have started
(17 R328, R331). -/
structure MseqRun where
  addr : Nat
  f : XSeq
  param : BitVec 64
  started : Nat
  /-- the last checkpoint recorded (16 R321, 29 R477) -/
  cp : Nat
deriving DecidableEq, Repr

/-- What a pending effect does when its sc comes. -/
inductive Act where
  /-- RNGCTR's block advances by n (14 R271) -/
  | rng (n : Nat)
  /-- a MOVT (13 R247) -/
  | special (id : Nat) (v : BitVec 64)
  /-- a scalar register, or a supervisor register -/
  | scalar (sup : Bool) (r : Nat) (v : BitVec 64)
  | pred (p : Nat) (b : Bool)
  | preds (v : BitVec 16)
  /-- the cells of a vector row that the mask names -/
  | cells (row : Nat) (mask : BitVec 64) (v : Row)
  | comps (d : Nat) (v : Row)
  | norm (d : Nat) (v : Word32)
  | flags (f : Flags)
  | accRow (a m : Nat) (v : Row)
  | accFill (a : Nat)
  | latch (k : Nat) (v : Gran)
  | bari (bar : Nat) (scope : BScope) (arr : BitVec 16) (bedw bedh : BitVec 3) (bytes : BitVec 32)
  | savept (item : Nat) (v : BitVec 32)
  /-- a LEASE: pulses, µs and µJ asked for (28 R463) -/
  | lease (pulses us uj : Nat)
  /-- counts into a barrier of the tile, with an error of the barrier's own (09 R174) -/
  | count (bar arr bytes : Nat) (err esub : BitVec 8)
  /-- a stream value under way to a neighbour (11 R215) -/
  | driven
  /-- a static write of the scratchpad; claim says that its claim has still to be checked -/
  | spadWr (a : Nat) (bytes : List Byte) (claim : Bool)
  /-- a vault landing: stratum, bank, physical row, logical row, column, granule (05 R105) -/
  | land (st bk row lrow col g : Nat)
  /-- the sample of a WR: stratum, bank, physical row, column, granule (05 R106) -/
  | sample (st bk row col g : Nat)
  /-- lanes of a gather and their addresses, for a row (10 R183) -/
  | gather (row : Nat) (lanes : List (Nat × Nat))
  /-- member i of a direction load of k members from d at ea, with the members read so far (10 R184) -/
  | lddRead (d k i ea : Nat) (got : List Row)
  /-- granules j and on of a weight-buffer load (10 R185) -/
  | ldwbRead (half : Bool) (ea o n j : Nat)
  | ldwbDone (half : Bool)
  /-- the claim of a local atomic of w bytes, made as a write in its read port sc (10 R186) -/
  | atomClaim (ea w : Nat)
  /-- a local atomic's read (10 R186); the old value goes to a scalar -/
  | atomRead (op : AtOp) (w64 : Bool) (ea : Nat) (x cmp : BitVec 64) (sup : Bool) (r : Nat)
  /-- the local read of an STR (10 R190), for the dynamic access of that number -/
  | strRead (id ea : Nat)
  /-- pass 1 of an operation, with the result and the flags of pass 0 (16 R313) -/
  | pass1 (x : XOp) (c : List Row) (f : Flags)
  /-- a result of the matrix engine, for rows 0 to 63 of an accumulator (16 R314) -/
  | ready (a : Nat) (v : List Row) (f : Flags)
  /-- step i of the running MSEQ (17 R330) -/
  | mseqStep (i : Nat)
  /-- the running MSEQ has completed that many steps, of which this is the last (17 R330, 29 R477; DEDUCED, log entry 30) -/
  | mseqEnd (steps : Nat)
deriving DecidableEq, Repr

/-- A pending effect: the sc in which it takes place, its rank within that sc, the order of issue, and the bundle
address and slot of the operation it belongs to. -/
structure Pend where
  due : Nat
  rank : Nat
  seq : Nat
  addr : Nat
  slot : Nat
  act : Act
deriving DecidableEq, Repr

/-- A side of a data bank or of a parity bank (09 R154). -/
inductive Side where
  | dataRead | dataWrite | parRead | parWrite
deriving DecidableEq, Repr

/-- Who asks a bank's side port for an access: a dynamic access of a tile, or a beat of a copy, by its Shuttle, the copy's
age and the beat's first element, as it reads or as it writes; a remote atomic's write of its old value; the read of a
wait; a line of an overlay load; and an access of a peer module, by its number (09 R158). -/
inductive Req where
  | dyn (n id : Nat)
  | beat (cl age first : Nat) (write : Bool)
  | back (n id : Nat)
  | wait (n : Nat)
  | ovl (n line : Nat)
  | peer (id : Nat)
deriving DecidableEq, Repr

/-- A reserved side: the port sc, the bank or group, what it serves (a granule, or a row for a parity read side),
and its users: the slot of each, with the granule it rebuilds if it is part of a rebuilt read (09 R154-R156). -/
structure Resv where
  sc : Nat
  side : Side
  bank : Nat
  what : Nat
  users : List (Nat × Option Nat)
deriving DecidableEq, Repr

/-- A scratchpad window (09 R162, 23 R392). -/
structure Win where
  shared : Bool
  bar : Nat
  base : Nat
  size : Nat
deriving DecidableEq, Repr

/-- A barrier record (09 R169), with the phase its tile sees and the sc from which it sees each completion that it has not
seen yet (R173). -/
structure Bar where
  err : BitVec 8
  flags : Flags
  lerr : BitVec 8
  lflags : Flags
  scope : BitVec 2
  bedw : BitVec 3
  bedh : BitVec 3
  phase : Bool
  armed : Bool
  lesub : BitVec 8
  esub : BitVec 8
  byteExp : BitVec 32
  byteCnt : BitVec 32
  arrExp : BitVec 16
  arrCnt : BitVec 16
  seen : Bool
  seenAt : List Nat
  /-- the end-of-sc test has been made in this sc, or during this pause (R172) -/
  tested : Bool
deriving DecidableEq, Repr

/-- A bank record, BANKST (04 R84). -/
structure Bank where
  state : BitVec 2
  row : BitVec 12
  aact : BitVec 8
  ard : BitVec 4
  awr : BitVec 6
  apre : BitVec 6
  refrem : BitVec 11
  rkind : Bool
  refdue : BitVec 14
deriving DecidableEq, Repr

/-- The vault's records and registers (04 R79-R92). -/
structure Vault where
  /-- BANKST, key 16 n + b; an unlisted bank is at its reset record -/
  banks : List (Nat × Bank)
  /-- the records as they stood at the end of the sc before: a trap keeps them (R101) -/
  before : List (Nat × Bank)
  /-- while a bundle issues: the stratum of its D0 command and the stratum's records before it (R86, R94) -/
  d0 : Option (Nat × List Bank)
  vwb : Store 64
  vwl : Store 64
  /-- strata that the policy core has marked as service strata (R82) -/
  svcMark : BitVec 4
  /-- mp of each bank's last physical refresh, key 16 n + b, unlisted 0 (R91) -/
  refMp : List (Nat × Nat)
  /-- banks whose refresh issues with its slot group on a later plot pulse of the sc (28 R457) -/
  refLate : List Nat
  /-- the current sc is a frozen sc (R101) -/
  frozen : Bool
  /-- banks whose REFDUE reached 0 in this sc (R92) -/
  expired : List Nat
deriving DecidableEq, Repr

/-- The matrix engine's occupancy (16 R314-R319): first sc in which the array, a half or an accumulator is free. -/
structure Mx where
  array : Nat
  half0 : Nat
  half1 : Nat
  /-- sc in which a weight-buffer load into the half completes -/
  load0 : Nat
  load1 : Nat
  /-- accumulators in flight from MMA, MMAZ, MSEQ and MZERO, key a -/
  flight : List (Nat × Nat)
  /-- accumulators in flight from MWR -/
  moving : List (Nat × Nat)
  mseq : Option MseqRun
  /-- the sc in which the last result of an MSEQ lands (17 R330) -/
  mseqTo : Nat
deriving DecidableEq, Repr

/-- The kinds of dynamic access (10 R187-R190). -/
inductive DynKind where
  | ldr
  | str
  | atom (op : AtOp) (w64 : Bool)
deriving DecidableEq, Repr

/-- A fault that dynamic work has met: cause code, sub-code and the virtual address or the RACE report. -/
structure DynFault where
  cause : BitVec 8
  sub : BitVec 8
  va : BitVec 64
  /-- claim party and granule of a RACE -/
  wp : BitVec 9
deriving DecidableEq, Repr

/-- A dynamic access that has not ended (10 R188). -/
structure Dyn where
  id : Nat
  kind : DynKind
  va : BitVec 64
  /-- the local granule, or the parameter granule of a remote atomic -/
  loc : Nat
  bar : Nat
  sc : Nat
  addr : Nat
  slot : Nat
  /-- acquire of an LDR, release of an STR -/
  order : Option Scope
  /-- the bytes of an STR once its local read is made, those of an LDR once its target has been read -/
  data : Option (List Byte)
  x : BitVec 64
  cmp : BitVec 64
  /-- performed at its target -/
  served : Bool
  flags : Flags
  fault : Option DynFault
deriving DecidableEq, Repr

/-- A value on its way on a stream lane: the sc it is present in, direction and lane, and what it carries (11 R204). -/
structure Flow where
  due : Nat
  dir : Dir
  lane : Nat
  data : BitVec 256
  stamp : BitVec 16
  eos : Bool
  /-- it has arrived at the tile's input -/
  present : Bool
deriving DecidableEq, Repr

/-- An overlay load under way (19 R360). -/
structure OvlLoad where
  page : Nat
  frame : Nat
  bar : Nat
  addr : Nat
  /-- the number of the next dynamic access when it issued -/
  dyn : Nat
  /-- the bytes of the page read so far -/
  bytes : List Byte
deriving DecidableEq, Repr

/-- A bundle as fetched: its address, header, extension word, masks, the words of its present operations, and its
words in order. -/
structure Fetched where
  addr : Nat
  hdr : Word32
  ext : Option Word32
  pres : Nat
  keep : Nat
  ops : List (Nat × Word32 × Word32)
  words : List Word32
deriving DecidableEq, Repr

/-- A copy of a bundle that the bed's lead has issued, on its way to a member (23 R406): the sc it reaches the tile
in, the issue's index, the bundle, and the point at which the lead goes on: address, issue and SKIP. -/
structure EspCopy where
  due : Nat
  idx : Nat
  bundle : Fetched
  next : Nat × Nat × Bool
deriving DecidableEq, Repr

/-- What the C operation of the bundle being issued asks of the sequencer (19 R337, R340, R347). -/
inductive Ctl where
  | none
  /-- continue at an address -/
  | goto (a : Nat)
  /-- push a loop entry -/
  | push (e : LoopEnt)
  /-- continue at the bundle that follows the one at an address; pop says that the innermost entry is popped -/
  | after (a : Nat) (pop : Bool)
  | wait (w : WaitSt)
  | eret
  /-- FENCE: dynamic accesses of later bundles wait (R357) -/
  | fence
deriving DecidableEq, Repr

/-- The sequencer of a tile (19 R337-R338). -/
structure Seq where
  pc : Nat
  /-- index of the next issue of the bundle at pc (02 R39) -/
  rep : Nat
  loops : List LoopEnt
  reissue : List ReEnt
  wait : WaitSt
  /-- END has issued (02 R43) -/
  ended : Bool
  /-- the bundle at pc is to be passed over (19 R347) -/
  skip : Bool
  /-- template entries, unlisted 0 -/
  templates : Store 32
  /-- walker cursors, unlisted 0 -/
  walk : Store 32
  /-- words of the instruction store, key 1024 frame + word -/
  istore : Store 32
  /-- frame tags in the form of 27 R445, unlisted invalid -/
  ftags : Store 64
  /-- words of the monitor store -/
  mstore : Store 32
  ovls : List OvlLoad
  esp : List EspCopy
  ctl : Ctl
  /-- the sc in which END has issued, and that of the last issue of a hold-point bundle (19 R355) -/
  endAt : Option Nat
  holdAt : Option Nat
deriving DecidableEq, Repr

/-- Trap registers and the mode (11 R201, 27 R431-R436). -/
structure TrapRegs where
  tcause : BitVec 64
  tpc : BitVec 64
  tval : BitVec 64
  tscyc : BitVec 64
  evec : BitVec 64
  sup : Bool
  halted : Bool
  shadowRe : List ReEnt
  shadowLoops : List LoopEnt
  /-- conditions that fell due at the boundary of this sc: place in the order of 04 R95, trap, and the address
  reported as TPC where that is not the bundle due -/
  pending : List (Nat × Trap × Option Nat)
  /-- the first trap of the program that the tile took: code, sc, TPC (27 R440) -/
  first : Option (BitVec 8 × Nat × Nat)
  /-- a plot stop under way: arrival sc and TVAL (27 R439) -/
  stopAt : Option (Nat × BitVec 64)
deriving DecidableEq, Repr

/-- One tile. -/
structure Tile where
  regs : Regs
  trap : TrapRegs
  seq : Seq
  vault : Vault
  mx : Mx
  /-- claim tags, key granule, unlisted 0 (09 R165) -/
  tags : Store 11
  wins : List Win
  ports : List Resv
  /-- dynamic requests that wait for a data bank of the tile, the oldest first, and the sides that dynamic accesses
  have taken: sc, side and bank or group (09 R158) -/
  bankQ : List (Req × Nat)
  dynUse : List (Nat × Side × Nat)
  /-- b0-b47, and sb47 at 48 -/
  bars : List (Nat × Bar)
  pend : List Pend
  /-- the next order of issue -/
  seqNo : Nat
  /-- sc in which an exposed-latency effect last took place -/
  landedAt : Option Nat
  dyn : List Dyn
  dynNo : Nat
  /-- FENCEs that have issued (19 R357): accesses from a number on wait for all before it, and for 4 sc after an sc -/
  fences : List (Nat × Nat)
  inbox : List Flow
  /-- SHCPY issued since launch (08 R137) -/
  shcpy : Nat
  saveSeq : BitVec 64
  /-- corrected errors counted (27 R451) -/
  corrections : Nat
  /-- uncorrectable errors met in a drain (05 R111, 27 R452) -/
  softLog : Nat
  /-- the plot the tile belongs to, and its logical coordinates -/
  plot : Option Nat
  lx : Nat
  ly : Nat
  /-- surviving banks of the vector file, ascending: the panel map (11 R197) -/
  vbanks : List Nat
  /-- withheld from placement (30 R494) -/
  withheld : Bool
  /-- uncorrectable errors in words of the register files and stores: sub-code and location of 27 R433 -/
  bad : List (Nat × Nat)
  /-- words with an error that a read corrects, named in the same way (27 R451) -/
  soft : List (Nat × Nat)
  /-- the tile has had its issue turn in the current sc -/
  turn : Bool
  /-- a WAITA has read in the current sc -/
  polled : Bool
  /-- MARKs of the bundle of this sc whose slot group has its pulse to come: that pulse of the sc, A and B (28 R457) -/
  marks : List (Nat × Nat × Nat)
  /-- address, INDEX of the innermost loop entry, and loop entries, as the bundle of this sc issued (29 R479) -/
  shown : Option (Nat × Nat × Nat)
deriving DecidableEq, Repr

end Sys2Proof.Machine
end

