-- ==== Sys2Proof/Machine/SysTypes.lean ====
section
/-! DEFINITION. What the machine holds beyond its tiles: plots, contexts, clusters, translations, the Loom's queues
and graphs, power, observation, links and the start. -/
namespace Sys2Proof.Machine

/-- The three variants of the module (00 R1). -/
inductive Model where
  | d48 | d24 | d48n
deriving DecidableEq, Repr

/-! ### Plots -/

/-- The states of a timetable (23 R401). -/
inductive PlotSt where
  | placing | armed | running | paused | stopped | preempted | done | faulted
deriving DecidableEq, Repr

/-- A hold-table entry (23 R393). -/
structure HoldEnt where
  cond : HoldCond
  /-- in microseconds, 0 for none -/
  timeout : Nat
  replan : Bool
deriving DecidableEq, Repr

/-- A variant (23 R397). -/
structure Variant where
  /-- resume table: address of each replan point, unlisted 0 -/
  resume : Store 32
  tag : BitVec 32
  power : Nat
  ceil : Nat
  bmp : Nat
  maxgap : Nat
deriving DecidableEq, Repr

/-- A vault window (23 R392). -/
structure VWin where
  st : Nat
  svc : Bool
  base : Nat
  size : Nat
deriving DecidableEq, Repr

/-- A barrier-table entry (23 R395). -/
structure BarEnt where
  bar : Nat
  scope : BitVec 2
  bedw : BitVec 3
  bedh : BitVec 3
  arr : BitVec 16
  bytes : BitVec 32
deriving DecidableEq, Repr

/-- A data-table entry (23 R396). -/
structure DataEnt where
  src : BitVec 64
  size : Nat
  spad : Nat
deriving DecidableEq, Repr

/-- A must-save item (28 R467). -/
structure MustEnt where
  base : Nat
  size : Nat
  kind : Nat
  st : Nat
  all : Bool
  rank : Nat
deriving DecidableEq, Repr

/-- A SAVEPT of an item since launch: its sequence and SCYC (28 R470). -/
structure MustMark where
  seq : BitVec 32
  scyc : Nat
  rank : Nat
deriving DecidableEq, Repr

/-- A timetable as the Loom reads it (23 R391-R397). -/
structure Timetable where
  imageId : BitVec 32
  npage : Nat
  codeVa : BitVec 64
  entry : Nat
  w : Nat
  h : Nat
  bedw : Nat
  bedh : Nat
  esp : Bool
  keep : Bool
  svc : BitVec 4
  nstrata : Nat
  panels : Nat
  holdmax : Nat
  rngKey0 : BitVec 32
  rngKey1 : BitVec 32
  rngCtr : BitVec 64
  templates : Store 32
  offsets : List Nat
  wins : List Win
  vwins : List VWin
  holds : List HoldEnt
  walks : List (BitVec 128)
  bars : List BarEnt
  datas : List DataEnt
  musts : List MustEnt
  variants : List Variant
  /-- the bytes of the descriptor and its tables, in the order read (30 R493) -/
  raw : List Byte
deriving DecidableEq, Repr

/-- Stops from outside the program, in the order in which they are chosen (04 R95, 28 R462). -/
inductive StopKind where
  | pfail | stretch | therm | preempt
deriving DecidableEq, Repr

/-- A stop that is due: its kind and the low word of TVAL's SUB, ST and BK (27 R433). -/
structure Stop where
  kind : StopKind
  sub : Nat
  st : Nat
  bk : Nat
deriving DecidableEq, Repr

/-- A plot's lease (28 R463-R464). -/
structure Lease where
  state : BitVec 2
  reason : BitVec 4
  /-- the pattern granted, and the one asked for -/
  pulses : Nat
  ask : Nat
  /-- µs and µJ left, while the lease does not run; asked for, while it is pending -/
  us : Nat
  uj : Nat
  /-- mp and context energy at the grant -/
  mp : Nat
  energy : BitVec 64
  /-- a re-request at resume (R465) -/
  again : Bool
  /-- sc and rank of the request -/
  askSc : Nat
  askRank : Nat
deriving DecidableEq, Repr

/-! ### Contexts and translation -/

/-- A publish that has not passed its swap point (08 R143). -/
structure Pub where
  va : BitVec 64
  scope : Scope
  bar : Nat
  tile : Nat
  sc : Nat
  addr : Nat
  rank : Nat
  lx : Nat
  ly : Nat
  /-- work of the tile issued before it: accesses of numbers below this one -/
  dyn : Nat
deriving DecidableEq, Repr

/-- Work of the Loom that stands behind a write to a page under migration: a write, by address and bytes, and an
interrupt request of a queue, which follows its record; urgent says that its message is sent at once (07 R127, 24 R415,
R419). -/
inductive Late where
  | write (va : BitVec 64) (bytes : List Byte)
  | irq (q : Nat) (urgent : Bool)
deriving DecidableEq, Repr

/-- A context. -/
structure Ctx where
  part : BitVec 3
  /-- offset of the save area's header in the service stratum of the tile that runs rank 0; its physical address where that
  tile has no slot (27 R442; DESIGN CHOICE, log entry 39) -/
  savePa : Nat
  /-- range entries (07 R115), unlisted 0, and those the Shuttles use (R129) -/
  ranges : Store 256
  active : Store 256
  ptroot : BitVec 52
  ptActive : BitVec 52
  /-- memory as it stood at the last invalidation: what a table walk reads (07 R129) -/
  ptMem : List Host.Cell
  pubs : List Pub
  /-- power limit in watts, 0 for none (28 R460) -/
  power : Nat
  /-- energy counter in 2^-10 µJ (28 R466) -/
  energy : BitVec 64
  /-- mp of the last page migration's lock: page address and new page (07 R127) -/
  migration : Option (BitVec 64 × Nat)
  /-- work of the Loom that waits for the page under migration, the oldest first (07 R127) -/
  late : List Late
deriving DecidableEq, Repr

/-- What a table walk finds: a leaf entry and its level, or an XLATE sub-code. -/
inductive Found where
  | leaf (pte : BitVec 64) (lvl : Nat)
  | fault (sub : Nat)
deriving DecidableEq, Repr

/-- A cached page translation (07 R128): the Shuttle, the context, the virtual 512 KiB page, and what the walk found:
the leaf with its level, or the XLATE sub-code. -/
structure Tlb where
  cluster : Nat
  ctx : Nat
  page : Nat
  found : Found
deriving DecidableEq, Repr

/-- A table walk asked for (07 R128). -/
structure Walk where
  die : Nat
  ctx : Nat
  page : Nat
  clusters : List Nat
deriving DecidableEq, Repr

/-! ### Shuttles and clusters -/

/-- A beat in flight (08 R138): its first element and number of elements, its destination, the physical places that it
was translated to, those of a peer module apart (07 R129), and the bytes it writes. -/
structure Beat where
  first : Nat
  count : Nat
  dst : BitVec 64
  pas : List Nat
  peer : Option Nat
  bytes : List Byte
  flags : Flags
deriving DecidableEq, Repr

/-- A copy that has not ended (08 R137-R140); the Loom's copies have no tile (24 R411). -/
structure Copy where
  id : BitVec 32
  ctx : Nat
  tile : Option Nat
  lx : Nat
  ly : Nat
  addr : Nat
  slot : Nat
  sc : Nat
  desc : BitVec 512
  /-- the barrier of its tile that it counts into, sb47 at 48 -/
  bar : Nat
  rm : Rm
  /-- age in the Shuttle -/
  age : Nat
  /-- elements that have been issued in beats -/
  next : Nat
  beats : List Beat
  written : Nat
  /-- cancelled, or stopped by a fault -/
  cancelled : Bool
  faulted : Bool
  suspended : Bool
  flags : Flags
  /-- of a Loom copy: queue, number of the packet, and node; and the cause of a fault -/
  q : Nat
  qseq : Nat
  node : Option Nat
  cause : BitVec 8
deriving DecidableEq, Repr

/-- The saved image of a tile (27 R444-R445): the tile, the bytes of its scratchpad that are not 0 and its words in
error, by offset; and its copies and publishes that are suspended (08 R150). -/
structure Saved where
  tile : Tile
  /-- the physical tile -/
  place : Nat
  spad : List Host.Cell
  errs : List Nat
  /-- its words with an error that a read corrects, by offset -/
  soft : List Nat
  copies : List Copy
  pubs : List Pub
deriving DecidableEq, Repr

/-- A timetable's run (23 R401). -/
structure Plot where
  tt : Timetable
  st : PlotSt
  ctx : Nat
  /-- launching queue, number of the packet, effective level (24 R416), and node of its graph -/
  q : Nat
  qseq : Nat
  level : Nat
  node : Option Nat
  x0 : Nat
  y0 : Nat
  w : Nat
  h : Nat
  /-- logical coordinates of the south-west tile that the plot has on this module (23 R389) -/
  lx0 : Nat
  ly0 : Nat
  variant : Nat
  /-- variant tags at arming and at each switch (30 R493) -/
  vtags : List (BitVec 32)
  /-- SCYC (11 R201) -/
  scyc : Nat
  /-- mp at which the current sc began, at which the plot was armed, and at which the clock of R405 started -/
  scMp : Nat
  armMp : Nat
  holdMp : Nat
  /-- HOLDMAX has passed since then (23 R405) -/
  overdue : Bool
  /-- mp of the last plot pulse, plot pulses of the current sc after its first, and the clusters that have delivered a
  pulse since the last (28 R455) -/
  pulMp : Nat
  got : Nat
  came : List Nat
  /-- before this mp the plot delivers no pulse: the refresh guard's wait after a pause (04 R98) -/
  guardMp : Nat
  /-- budget failed since the last hold or start (28 R462) -/
  overrun : Bool
  split : BitVec 2
  /-- the mp at which the pause began -/
  pauseMp : Nat
  /-- ranks whose hold condition has been seen to hold (19 R356) -/
  held : List Nat
  /-- stops that have been asked for and are not yet taken -/
  stops : List Stop
  /-- a forced stop: the boundary at which it is taken and its stop -/
  forced : Option (Nat × Stop)
  /-- PFAIL arrived at this mp (28 R471) -/
  pfailAt : Option Nat
  lease : Lease
  marks : List (Nat × MustMark)
  charged : Bool
  energy0 : BitVec 64
  /-- the context's energy as the current sc began (13 R247, 28 R466) -/
  scEnergy : BitVec 64
  /-- ring index of the packet that launched it (30 R493) -/
  seq : Nat
  /-- stopped by a queue reset -/
  reset : Bool
  /-- the stop that has been taken: its code, TSCYC, and whether it was a forced stop -/
  taken : Option (BitVec 8 × Nat × Bool)
  /-- cause, sc, rank and TPC of the earliest trap that ends the plot (27 R440) -/
  ended : Option (BitVec 8 × Nat × Nat × Nat)
  /-- the save slots assigned on tiles that it holds or held: tile, stratum and number (27 R442) -/
  slots : List (Nat × Nat × Nat)
  /-- a plot stop that reached it while it was armed, for tiles that it has still to take: sc and TVAL (30 R490) -/
  psent : Option (Nat × BitVec 64)
  /-- of a timetable with must-save items, the images of tiles that were freed while it ran, by rank (28 R471) -/
  freed : List (Nat × Saved)
  /-- images of the tiles by rank, of a plot that is preempted or stopped -/
  saved : List (Nat × Saved)
  /-- the plot is armed to resume from its images: into its hold, or into its run (27 R446, R450) -/
  resumes : Bool
  atHold : Bool
deriving DecidableEq, Repr

/-- A cluster (01 R14): its Shuttle, pattern, temperature and retention. Cluster number 32 is the Loom's own copy
channel and holds copies alone (24 R411). -/
structure Cluster where
  copies : List Copy
  copyAge : Nat
  /-- the context last served (08 R141) -/
  served : Nat
  /-- pulses of every 16: in force, allotted, floor, the policy core's limit (28 R454, R459, R461) -/
  pat : Nat
  allot : Nat
  floor : Nat
  limit : Nat
  band : Nat
  /-- stopped for thermal protection (04 R90) -/
  hot : Bool
  retained : Bool
deriving DecidableEq, Repr

/-! ### The Loom -/

/-- What a running packet is (24 R411). -/
inductive JobKind where
  | launch (plot : Nat)
  | copy
  | graph
  | wait (va val : BitVec 64) (w64 : Bool) (cmp : Cmp) (timeout : Nat)
deriving DecidableEq, Repr

/-- A packet that has started and not completed. -/
structure Job where
  /-- its number among the packets that the queue has started, and the ring index of its header -/
  id : Nat
  seq : Nat
  irq : Bool
  recVa : BitVec 64
  kind : JobKind
  mp : Nat
  energy0 : BitVec 64
deriving DecidableEq, Repr

/-- A node's live copy (24 R418). -/
structure GNode where
  raw : BitVec 512
  pred : BitVec 16
  st : BitVec 4
  /-- TIMED: the offset has passed -/
  timed : Bool
deriving DecidableEq, Repr

/-- A graph under way. -/
structure GraphRun where
  /-- number of its packet -/
  id : Nat
  base : BitVec 64
  cap : Nat
  nodes : List GNode
  rearms : Nat
  mp : Nat
  /-- an END has run, or an error has stopped it: STATUS, CODE and TCAUSE -/
  stop : Option (Nat × Nat × Nat)
deriving DecidableEq, Repr

/-- A command packet as read (24 R411). -/
inductive Packet where
  | launch (p : Pkt) (desc rec : BitVec 64)
  | copy (p : Pkt) (desc rec : BitVec 64)
  | signal (p : Pkt) (va val : BitVec 64) (w64 add : Bool)
  | wait (p : Pkt) (va val : BitVec 64) (w64 : Bool) (cmp : Cmp) (timeout : BitVec 32)
  | callib (p : Pkt) (va : BitVec 64) (len : BitVec 32)
  | retib (p : Pkt)
  | graph (p : Pkt) (base : BitVec 64) (cap count : BitVec 16) (rec : BitVec 64)
  | fencek (p : Pkt)
  | markk (p : Pkt) (tag : BitVec 32)
deriving DecidableEq, Repr

/-- A queue (24 R408-R420). -/
structure Queue where
  desc : BitVec 512
  enabled : Bool
  tail : Nat
  head : Nat
  level : Nat
  /-- the mp since which the queue has been ready or has last risen -/
  readyMp : Nat
  /-- indirect buffers, the innermost first: base, next word, words -/
  bufs : List (BitVec 64 × Nat × Nat)
  /-- the packet read and not yet started -/
  next : Option Packet
  /-- its BARRIER bit -/
  nextBar : Bool
  jobs : List Job
  /-- packets started -/
  count : Nat
  graphs : List GraphRun
  stopped : Bool
  /-- the next packet to be read is the one whose error has stopped the queue (R415) -/
  failed : Bool
  resetting : Bool
  irqs : Nat
  irqMp : Nat
deriving DecidableEq, Repr

/-! ### Observation, links, start -/

/-- A selvage ring (29 R478). -/
structure Ring where
  base : Nat
  size : Nat
  ctl : Nat
  headSeen : BitVec 64
deriving DecidableEq, Repr

/-- A partition's sampling, counters and power limit (29 R479, R481, 28 R460). -/
structure Part where
  sampling : Nat
  codes : List (Nat × BitVec 8)
  counts : List (Nat × BitVec 64)
  blockPa : Nat
  blockSeq : BitVec 64
  /-- mp of the block's last write -/
  snapMp : Nat
  power : Nat
deriving DecidableEq, Repr

/-- LINKSTAT of a link (30 R487), with whether a start may train it at full rate (R494). -/
structure Link where
  stream : Bool
  peerMod : BitVec 8
  peerLink : BitVec 4
  rate : BitVec 8
  state : BitVec 8
  half : Bool
deriving DecidableEq, Repr

/-- BOOTSTAT and what a start takes from the one before (30 R485, R495). -/
structure Boot where
  state : BitVec 4
  last : BitVec 8
  fail : BitVec 8
  /-- the journal: step and 1 begun, 2 done, 3 failed, the oldest first (R494) -/
  journal : List (Nat × Nat)
  /-- a full step 3 has succeeded; the last start failed step 3 -/
  trained : Bool
  retrain : Bool
  /-- step 6 has failed: the restart record reads as holding no entries (R494) -/
  unread : Bool
deriving DecidableEq, Repr

/-- The sequence of a supply loss (28 R471). -/
structure Pfail where
  mp : Nat
  /-- chunks written, and the energy they cost in µJ -/
  chunks : Nat
  uj : Nat
  /-- clusters whose retention parity failed -/
  lost : List Nat
deriving DecidableEq, Repr

end Sys2Proof.Machine
end

