-- ==== Sys2Proof/Machine/State.lean ====
section
/-! DEFINITION. The state of the module, the reasons a step can stop, and the state after reset. -/
namespace Sys2Proof.Machine

/-- The reasons for which the machine stops. -/
inductive Fault where
  /-- raised by every step but MODULE_START once the module has powered down at the end of the sequence of 28 R471;
  safe: the spec gives the machine no step there -/
  | poweredDown
deriving DecidableEq, Repr

/-- The reasons for which a step has no meaning. -/
inductive Refusal where
  /-- raised by an arm of the dispatch whose instruction has no meaning in the model; safe -/
  | notModelled (mnemonic : String)
deriving DecidableEq, Repr

/-- The place of the operation that is being issued: tile, slot (mask bit of 02 R30), bundle address, repetition
index, and the address of the bundle that follows. -/
structure Cursor where
  tile : Nat
  slot : Nat
  addr : Nat
  idx : Nat
  next : Nat
deriving DecidableEq, Repr

/-- The module. -/
structure State where
  model : Model
  tiles : List (Nat × Tile)
  /-- every timetable that has been admitted, by number (23 R401) -/
  plots : List (Nat × Plot)
  /-- bytes of the 52-bit physical space (07 R114); an unlisted byte reads 0 (DESIGN CHOICE, log entry 2) -/
  mem : List Host.Cell
  /-- detected uncorrectable errors: addresses of 8-byte scratchpad words (a parity word of bank j, row k stands
  behind the data at offset 0xC_0000 + 64 (12 k + j)), and of 64-byte vault columns (04 R77, 09 R152, 27 R452) -/
  errs : List Nat
  /-- words and columns, named in the same way, with an error that a read corrects (04 R77, 27 R451) -/
  soft : List Nat
  ctxs : List (Nat × Ctx)
  clusters : List (Nat × Cluster)
  tlb : List Tlb
  walks : List Walk
  queues : List (Nat × Queue)
  /-- the queue whose packet started last at each level (24 R416) -/
  turnQ : List (Nat × Nat)
  /-- MSI-X vectors of the messages sent, the latest first (24 R419) -/
  msix : List Nat
  rings : List (Nat × Ring)
  parts : List (Nat × Part)
  links : List (Nat × Link)
  boot : Boot
  /-- keep store (28 R471-R473) -/
  keep : List Host.Cell
  pfail : Option Pfail
  /-- the module has powered down -/
  down : Bool
  /-- module power limit in watts (28 R459) -/
  powerLimit : Nat
  /-- dies whose clusters deliver their floor pattern, with the mp until which they do at least (28 R461) -/
  droops : List (Nat × Nat)
  /-- CXL.mem decoders and inbound windows: base and size (07 R125, R126) -/
  hdm : List (Nat × Nat × Nat)
  inbound : List (Nat × Nat × Nat)
  /-- bytes of peer modules that this module has written, by physical address (22 R386) -/
  peerMem : List (Nat × Byte)
  /-- accesses of peer modules that wait for a bank of a tile, by number: address and access (09 R158) -/
  peerQ : List (Nat × Nat × PeerAcc)
  peerNext : Nat
  /-- the place that a request waiting for a bank was translated to (07 R129) -/
  places : List (Req × Nat)
  /-- the plot group: columns, rows and the module's own index (30 R489) -/
  group : Nat × Nat × Nat
  /-- ns that the selvage clock stands ahead of the module's own count, by link training (29 R476) -/
  nsOff : BitVec 64
  /-- words of the MSI-X table and of the mailbox, by BAR0 offset div 4, unlisted 0 (30 R483) -/
  bar0 : Store 32
  /-- manifest entries, the oldest first (30 R493) -/
  manifest : List (List Byte)
  /-- what the module has answered to the host, a peer or a verifier, the latest first (30 R491-R493) -/
  answers : List (List Byte)
  mp : Nat
  /-- the plots have had the current master pulse; the tiles that have been sampled at it (29 R479) -/
  pulsed : Bool
  sampled : List Nat
  /-- the reasons of the current master pulse have been counted (29 R481) -/
  counted : Bool
  /-- the next number of a timetable -/
  plotNo : Nat
  agenda : List Instr
  cur : Cursor
  freeCtr : Nat
deriving DecidableEq, Repr

def Regs.reset : Regs :=
  { sc := [], ss := [], preds := 1, vrow := [], acc := [], accMode := 0, wb := [], dir := [], norm := [], lat := [],
    flags := 0, pflags := 0, rmode := 0, rngKey0 := 0, rngKey1 := 0, rngCtr := 0 }

def TrapRegs.reset : TrapRegs :=
  { tcause := 0, tpc := 0, tval := 0, tscyc := 0, evec := 0, sup := false, halted := false, shadowRe := [],
    shadowLoops := [], pending := [], first := none, stopAt := none }

def Seq.reset : Seq :=
  { pc := 0, rep := 0, loops := [], reissue := [], wait := .none, ended := false, skip := false, templates := [],
    walk := [], istore := [], ftags := [], mstore := [], ovls := [], esp := [], ctl := .none,
    endAt := none, holdAt := none }

/-- A bank record at reset (04 R84). -/
def Bank.reset : Bank :=
  { state := 0, row := 0, aact := 0xFF, ard := 0xF, awr := 0x3F, apre := 0x3F, refrem := 0, rkind := false,
    refdue := 0x3FFF }

def Vault.reset : Vault :=
  { banks := [], before := [], d0 := none, vwb := [], vwl := [], svcMark := 0, refMp := [], refLate := [],
    frozen := false, expired := [] }

def Mx.reset : Mx :=
  { array := 0, half0 := 0, half1 := 0, load0 := 0, load1 := 0, flight := [], moving := [], mseq := none, mseqTo := 0 }

/-- A tile after the start of the module (30 R494; DESIGN CHOICE, log entry 1). -/
def Tile.reset : Tile :=
  { regs := Regs.reset, trap := TrapRegs.reset, seq := Seq.reset, vault := Vault.reset, mx := Mx.reset, tags := [],
    wins := [], ports := [], bankQ := [], dynUse := [], bars := [], pend := [], seqNo := 0, landedAt := none, dyn := [], dynNo := 0,
    fences := [], inbox := [], shcpy := 0, saveSeq := 0, corrections := 0, softLog := 0, plot := none,
    lx := 0, ly := 0, vbanks := List.range 12, withheld := false, bad := [], soft := [], turn := false,
    polled := false, marks := [], shown := none }

/-- A context that the policy core has not created. -/
def Ctx.reset : Ctx :=
  { part := 0, savePa := 0, ranges := [], active := [], ptroot := 0, ptActive := 0, ptMem := [], pubs := [], power := 0,
    energy := 0, migration := none, late := [] }

/-- A cluster at reset: full pattern, floor 4 of 16 (28 R461), band A (DESIGN CHOICE, log entry 1). -/
def Cluster.reset : Cluster :=
  { copies := [], copyAge := 0, served := 0, pat := 16, allot := 16, floor := 4, limit := 16, band := 0, hot := false,
    retained := false }

def Queue.reset : Queue :=
  { desc := 0, enabled := false, tail := 0, head := 0, level := 0, readyMp := 0, bufs := [], next := none,
    nextBar := false, jobs := [], count := 0, graphs := [], stopped := false, failed := false, resetting := false, irqs := 0, irqMp := 0 }

def Ring.reset : Ring := { base := 0, size := 0, ctl := 0, headSeen := 0 }
def Part.reset : Part := { sampling := 0, codes := [], counts := [], blockPa := 0, blockSeq := 0, snapMp := 0, power := 0 }
/-- LINKSTAT at reset (30 R487). -/
def Link.reset : Link := { stream := false, peerMod := 0xFF, peerLink := 0, rate := 0, state := 0, half := false }
/-- BOOTSTAT at reset (30 R485). -/
def Boot.reset : Boot := { state := 0, last := 0, fail := 0, journal := [], trained := false, retrain := false, unread := false }
def Lease.reset : Lease :=
  { state := 0, reason := 0, pulses := 0, ask := 0, us := 0, uj := 0, mp := 0, energy := 0, again := false,
    askSc := 0, askRank := 0 }

/-- The module right after reset (DESIGN CHOICE, log entry 1 for what the spec leaves open). -/
def State.reset : State :=
  { model := .d48, tiles := [], plots := [], mem := [], errs := [], soft := [], ctxs := [], clusters := [], tlb := [], walks := [],
    queues := [], turnQ := [], msix := [], rings := [], parts := [], links := [], boot := Boot.reset, keep := [], pfail := none,
    down := false, powerLimit := 2800, droops := [], hdm := [], inbound := [], peerMem := [], peerQ := [], peerNext := 0,
    places := [], group := (1, 1, 0), nsOff := 0, bar0 := [], manifest := [],
    answers := [], mp := 0, pulsed := false, sampled := [], counted := false, plotNo := 0, agenda := [], cur := { tile := 0, slot := 0, addr := 0, idx := 0, next := 0 },
    freeCtr := 0 }

end Sys2Proof.Machine
end

