-- ==== Sys2Proof/Machine/Store.lean ====
section
/-! DEFINITION. Sparse stores and memory in canonical form: keys strictly rising, no entry equal to what an unlisted
key reads as; and association lists for numbered parts of the state. -/
namespace Sys2Proof.Machine

/-- A numbered part of the state, or a default. -/
def aget {α : Type} (dflt : α) : List (Nat × α) → Nat → α
  | [], _ => dflt
  | (k, v) :: r, i => if i = k then v else aget dflt r i
/-- The part of a number, if it is there. -/
def afind {α : Type} : List (Nat × α) → Nat → Option α
  | [], _ => none
  | (k, v) :: r, i => if i = k then some v else afind r i
/-- A numbered part replaced, or added in rising order. -/
def aset {α : Type} : List (Nat × α) → Nat → α → List (Nat × α)
  | [], i, x => [(i, x)]
  | (k, v) :: r, i, x =>
    if i = k then (i, x) :: r else if i < k then (i, x) :: (k, v) :: r else (k, v) :: aset r i x
/-- A numbered part taken away. -/
def adel {α : Type} (l : List (Nat × α)) (i : Nat) : List (Nat × α) := l.filter (fun p => p.1 != i)

/-- The value of a key. -/
def sget {w : Nat} (dflt : BitVec w) (m : Store w) (i : Nat) : BitVec w := aget dflt m i
/-- A key set to a value; a default value is not listed. -/
def sset {w : Nat} (dflt : BitVec w) (m : Store w) (i : Nat) (x : BitVec w) : Store w :=
  if x = dflt then adel m i else aset m i x

/-- Canonical form: every key above lo, rising, no default. -/
def swfFrom {w : Nat} (dflt : BitVec w) : Nat → Store w → Bool
  | _, [] => true
  | lo, (k, v) :: r => decide (lo ≤ k) && v != dflt && swfFrom dflt (k + 1) r
def swf {w : Nat} (dflt : BitVec w) (m : Store w) : Bool := swfFrom dflt 0 m

/-- What an unlisted byte of memory reads as (DESIGN CHOICE, log entry 2). -/
def memDefault : Byte := 0
/-- One byte of memory. -/
def Memory.get (m : List Host.Cell) (a : Nat) : Byte := sget memDefault m a
/-- One byte of memory written. -/
def Memory.set (m : List Host.Cell) (a : Nat) (b : Byte) : List Host.Cell := sset memDefault m a b
/-- The canonical form of memory. -/
def Memory.wf (m : List Host.Cell) : Bool := swf memDefault m

/-- n bytes from a, the lowest first. -/
def Memory.read (m : List Host.Cell) (a n : Nat) : List Byte := (List.range n).map (fun i => Memory.get m (a + i))
/-- Bytes written from a on. -/
def Memory.write (m : List Host.Cell) (a : Nat) : List Byte → List Host.Cell
  | [] => m
  | b :: r => Memory.write (Memory.set m a b) (a + 1) r

/-- Little-endian number of a list of bytes (00 R9). -/
def leNat : List Byte → Nat
  | [] => 0
  | b :: r => b.toNat + 256 * leNat r
/-- n bytes of a number, little-endian. -/
def leBytes : Nat → Nat → List Byte
  | 0, _ => []
  | n + 1, x => BitVec.ofNat 8 x :: leBytes n (x / 256)

end Sys2Proof.Machine
end

