-- ==== Sys2Proof/Machine/Operands.lean ====
section
/-! DEFINITION. Operand forms: cells and elements of rows (11 R196, 14 R254), the four views, scalar and predicate
operands (R194, R195), direction components and norms, and the effects that write them. -/
namespace Sys2Proof.Machine

/-- Field k of width w of a number. -/
def part (w x k : Nat) : Nat := x / 2 ^ (w * k) % 2 ^ w
/-- n fields of width w put together, field 0 lowest. -/
def pack (w : Nat) (f : Nat → Nat) : Nat → Nat
  | 0 => 0
  | n + 1 => pack w f n + f n % 2 ^ w * 2 ^ (w * n)

/-- Cell i of a row. -/
def rowCell (v : Row) (i : Nat) : Nat := part 32 v.toNat i
/-- Element e of width w of a row. -/
def rowElem (v : Row) (w e : Nat) : Nat := part w v.toNat e
/-- A row of cells. -/
def rowOfCells (f : Nat → Nat) : Row := BitVec.ofNat 2048 (pack 32 f 64)
/-- A row of elements of width w. -/
def rowOfElems (w : Nat) (f : Nat → Nat) : Row := BitVec.ofNat 2048 (pack w f (2048 / w))
/-- The bytes of a row. -/
def rowOfBytes (b : List Byte) : Row := BitVec.ofNat 2048 (leNat b)
def rowBytes (v : Row) : List Byte := leBytes 256 v.toNat
def granOfBytes (b : List Byte) : Gran := BitVec.ofNat 512 (leNat b)
def granBytes (v : Gran) : List Byte := leBytes 64 v.toNat

/-- The row with its masked cells replaced. -/
def mergeCells (mask : BitVec 64) (old new : Row) : Row :=
  rowOfCells (fun i => if mask.getLsbD i then rowCell new i else rowCell old i)

/-- Elements of a format in one cell (R254). -/
def perCell (f : Fmt) : Nat := 32 / fmtWidth f
/-- Elements of a format in a row. -/
def perRow (f : Fmt) : Nat := 2048 / fmtWidth f

/-! Scalars and predicates -/

/-- A scalar operand: s0 reads zero (R194), and 48-55 name ss0-ss7 in supervisor mode (27 R435). -/
def Tile.rs (t : Tile) (r : BitVec 6) : BitVec 64 :=
  let n := r.toNat
  if t.trap.sup && 48 ≤ n && n ≤ 55 then sget 0 t.regs.ss (n - 48)
  else if n = 0 then 0 else sget 0 t.regs.sc n

/-- A predicate operand: p0 reads 1 (R195). -/
def Tile.rp (t : Tile) (p : BitVec 4) : Bool := p == 0 || t.regs.preds.getLsbD p.toNat

/-- The effect that writes a scalar operand. -/
def Tile.wScalar (t : Tile) (r : BitVec 6) (v : BitVec 64) : Act :=
  let n := r.toNat
  if t.trap.sup && 48 ≤ n && n ≤ 55 then .scalar true (n - 48) v else .scalar false n v

/-- The register number a barrier operand names: 47 is sb47 in supervisor mode (27 R435). -/
def Tile.barOf (t : Tile) (b : BitVec 6) : Nat := if t.trap.sup && b.toNat = 47 then 48 else b.toNat

/-! Vector rows and views -/

def Tile.vrow (t : Tile) (r : Nat) : Row := sget 0 t.regs.vrow r
def Tile.accRow (t : Tile) (a m : Nat) : Row := sget 0 t.regs.acc (64 * a + m)
def Tile.comps (t : Tile) (d : Nat) : Row := sget 0 t.regs.dir d
/-- The zero code of a norm (15 R281). -/
def normZero : Word32 := 0x80000000
/-- The member code of a norm. -/
def normMember : Word32 := 0x80000001
def Tile.normOf (t : Tile) (d : Nat) : Word32 := sget normZero t.regs.norm d

/-- The row and the cell of lane j of a view that names cells (R196). -/
def viewLane : View → Nat → Option (Nat × Nat)
  | .row r, j => some (r.toNat, j)
  | .col p c, j => if j < 16 then some (16 * p.toNat + j, c.toNat) else none
  | .diag p d, j => some (16 * p.toNat + j % 16, (j + d.toNat) % 64)
  | .spec _, _ => none

/-- The 64 lanes a view supplies; a lane that reads zero supplies zero (R196, R254). -/
def Tile.view (t : Tile) (v : View) : Row :=
  match v with
  | .row r => t.vrow r.toNat
  | .col p c => rowOfCells (fun j => if j < 16 then rowCell (t.vrow (16 * p.toNat + j)) c.toNat else 0)
  | .diag p d => rowOfCells (fun j => rowCell (t.vrow (16 * p.toNat + j % 16)) ((j + d.toNat) % 64))
  | .spec k => let x := (t.rs k).toNat % 2 ^ 32; rowOfCells (fun _ => x)

/-- The mask whose bits satisfy a test. -/
def maskOf (f : Nat → Bool) : BitVec 64 := BitVec.ofNat 64 (pack 1 (fun i => (f i).toNat) 64)

/-- The lanes a view writes. -/
def viewLanes : View → Nat
  | .col _ _ => 16
  | .spec _ => 0
  | _ => 64

/-- The effects that write the lanes of a destination view that the mask names (R196, R254). -/
def viewWrite (v : View) (mask : BitVec 64) (x : Row) : List Act :=
  match v with
  | .row r => [.cells r.toNat mask x]
  | .col p c => (List.range 16).filterMap (fun j =>
      if mask.getLsbD j then
        some (.cells (16 * p.toNat + j) (maskOf (· == c.toNat)) (rowOfCells (fun _ => rowCell x j)))
      else none)
  | .diag p d => (List.range 16).map (fun i =>
      -- lane j of row 16 p + i stands in cell (j + d) mod 64
      .cells (16 * p.toNat + i) (maskOf (fun c => let j := (c + 64 - d.toNat) % 64; j % 16 == i && mask.getLsbD j))
        (rowOfCells (fun c => rowCell x ((c + 64 - d.toNat) % 64))))
  | .spec _ => []

/-- Every lane. -/
def allLanes : BitVec 64 := BitVec.allOnes 64

/-- A row view. -/
def viewRow : View → Option Nat
  | .row r => some r.toNat
  | _ => none
def viewIsRow (v : View) : Bool := (viewRow v).isSome
def viewIsSpec : View → Bool
  | .spec _ => true
  | _ => false
/-- A panel operand: a row view whose row is a multiple of 16 (14 R274). -/
def viewIsPanel (v : View) : Bool := match (viewRow v) with | some r => r % 16 == 0 | none => false
/-- The row of a row view, 0 for another view. -/
def viewRowNo (v : View) : Nat := (viewRow v).getD 0

/-! Stepping a field at re-issue (02 R37, R38): the stepped field, with a mark where the result leaves its file, REASON
0x6; the field then keeps its number, and the operation's other fields step, so that a lower reason can be found
(03 R75). -/

/-- A step, with the mark. -/
abbrev Stepped (α : Type) := StateM Bool α
/-- A field that leaves its file. -/
def leaves {α : Type} (x : α) : Stepped α := fun _ => (x, true)

def stepReg {w : Nat} (limit : Nat) (x : BitVec w) (s : Bool) : Stepped (BitVec w) :=
  if s then (if x.toNat + 1 < limit then pure (BitVec.ofNat w (x.toNat + 1)) else leaves x) else pure x
def stepScalar (x : BitVec 6) (s : Bool) : Stepped (BitVec 6) := stepReg 64 x s
def stepBar (x : BitVec 6) (s : Bool) : Stepped (BitVec 6) := stepReg 48 x s
def stepPred (x : BitVec 4) (s : Bool) : Stepped (BitVec 4) := stepReg 16 x s
def stepAcc (x : BitVec 3) (s : Bool) : Stepped (BitVec 3) := stepReg 8 x s
def stepView (panels : Nat) (v : View) (s : Bool) : Stepped View :=
  if !s then pure v else
  match v with
  | .row r => if r.toNat + 1 < 16 * panels then pure (.row (BitVec.ofNat 10 (r.toNat + 1))) else leaves v
  | .col p c =>
    let n := 64 * p.toNat + c.toNat + 1
    if n < 64 * panels then pure (.col (BitVec.ofNat 6 (n / 64)) (BitVec.ofNat 6 n)) else leaves v
  | .diag p d =>
    let n := 64 * p.toNat + d.toNat + 1
    if n < 64 * panels then pure (.diag (BitVec.ofNat 6 (n / 64)) (BitVec.ofNat 6 n)) else leaves v
  | .spec k => if k.toNat + 1 < 64 then pure (.spec (BitVec.ofNat 6 (k.toNat + 1))) else leaves v
/-- A field stepped by a signed amount, within its range. -/
def stepNat {w : Nat} (x : BitVec w) (d : Int) (limit : Nat) : Stepped (BitVec w) :=
  let n := (x.toNat : Int) + d
  if 0 ≤ n ∧ n < limit then pure (BitVec.ofNat w n.toNat) else leaves x
def stepSigned {w : Nat} (x : BitVec w) (d : Int) : Stepped (BitVec w) :=
  let n := x.toInt + d
  if -(2 ^ (w - 1)) ≤ n ∧ n < 2 ^ (w - 1) then pure (BitVec.ofInt w n) else leaves x

end Sys2Proof.Machine
end

