-- ==== Sys2Proof/Machine/Access.lean ====
section
/-! DEFINITION. Reaching the parts of the state: tiles and plots by number, coordinates (01 R13, R496, 23 R389), the
place of the operation being issued, pending effects in their order, and traps. -/
namespace Sys2Proof.Machine

/-! Geometry -/

/-- Width of the module's tile array (00 R1, 01 R13). -/
def Model.width : Model → Nat
  | .d24 => 16
  | _ => 32
/-- The tiles of the module. -/
def Model.tiles : Model → Nat
  | .d24 => 256
  | _ => 512
/-- Clusters of the module. -/
def Model.clusters : Model → Nat
  | .d24 => 16
  | _ => 32
/-- Sprintum links of the variant (00 R1). -/
def Model.links : Model → Nat
  | .d24 => 6
  | _ => 12
def State.link (s : State) (n : Nat) : Link := aget Link.reset s.links n
/-- The physical tile index of a tile (01 R496). -/
def tileIdx (x y : Nat) : Nat := 256 * (x / 16) + 16 * y + x % 16
/-- The coordinates of a physical tile index. -/
def tileX (n : Nat) : Nat := 16 * (n / 256) + n % 16
def tileY (n : Nat) : Nat := n % 256 / 16
/-- The cluster number of a tile (01 R13, R496). -/
def clusterOf (n : Nat) : Nat := 16 * (n / 256) + 4 * (tileY n / 4) + tileX n % 16 / 4

/-! Tiles and plots -/

def State.tile (s : State) (n : Nat) : Tile := aget Tile.reset s.tiles n
def State.setTile (s : State) (n : Nat) (t : Tile) : State := { s with tiles := aset s.tiles n t }
def State.mapTile (s : State) (n : Nat) (f : Tile → Tile) : State := s.setTile n (f (s.tile n))
/-- The plot a tile belongs to. -/
def State.plotOf (s : State) (n : Nat) : Option Plot := (s.tile n).plot.bind (afind s.plots)
def State.mapPlot (s : State) (p : Nat) (f : Plot → Plot) : State :=
  match afind s.plots p with
  | some pl => { s with plots := aset s.plots p (f pl) }
  | none => s
/-- The current sc of a tile: SCYC of its plot, 0 where it belongs to none. -/
def State.now (s : State) (n : Nat) : Nat := match s.plotOf n with | some pl => pl.scyc | none => 0
/-- A plot spans modules of the plot group (01 R20, 23 R389). -/
def Plot.spans (pl : Plot) : Bool := 32 < pl.w || 16 < pl.h
/-- Width and height of the rectangle that a plot holds on this module (23 R389). -/
def Plot.ownW (pl : Plot) : Nat := Nat.min pl.w 32
def Plot.ownH (pl : Plot) : Nat := Nat.min pl.h 16
/-- Logical coordinates lie on this module. -/
def Plot.mine (pl : Plot) (lx ly : Nat) : Bool :=
  pl.lx0 ≤ lx && lx < pl.lx0 + pl.ownW && pl.ly0 ≤ ly && ly < pl.ly0 + pl.ownH
/-- The physical tile of logical coordinates of a plot on this module. -/
def Plot.tileAt (pl : Plot) (lx ly : Nat) : Nat := tileIdx (pl.x0 + (lx - pl.lx0)) (pl.y0 + (ly - pl.ly0))
/-- The ranks of a plot's tiles on this module, ascending (09 R164). -/
def Plot.own (pl : Plot) : List Nat :=
  (List.range (pl.w * pl.h)).filter (fun r => pl.mine (r % pl.w) (r / pl.w))
/-- The tiles of a plot on this module in rank order. -/
def Plot.tileList (pl : Plot) : List Nat := pl.own.map (fun r => pl.tileAt (r % pl.w) (r / pl.w))
/-- Tiles of a plot that are still its own. -/
def State.tilesOf (s : State) (k : Nat) (pl : Plot) : List Nat :=
  pl.tileList.filter (fun n => (s.tile n).plot == some k)
/-- Tiles that a plot holds. -/
def State.held (s : State) : List Nat := (s.tiles.filter (fun p => p.2.plot.isSome)).map (·.1)
/-- The running variant. -/
def Plot.var (pl : Plot) : Variant :=
  (pl.tt.variants[pl.variant]?).getD ⟨[], 0, 2800, 0, 1, 1⟩

/-! Memory -/

/-- Bytes of the word or column that an address of an error names (04 R77, 09 R152). -/
def errSize (w : Nat) : Nat := if w < 2 ^ 48 then 64 else 8
/-- A word or column meets the bytes of an access to memory. -/
def errMeets (pa len w : Nat) : Bool := w < pa + len && pa < w + errSize w
/-- An error stands in the bytes of an access to memory (04 R78, 09 R152). -/
def State.memErr (s : State) (pa len : Nat) : Bool := s.errs.any (errMeets pa len)
/-- A write of bytes rewrites a word or column whole; a parity word is rewritten with any data word of its group at its
place (09 R151, R152). -/
def rewritten (pa len w : Nat) : Bool :=
  let whole (x k : Nat) : Bool := pa ≤ x && x + k ≤ pa + len
  let o := w % 2 ^ 20
  if w < 2 ^ 48 || o < 0xC0000 then whole w (errSize w)
  else
    let q := (o - 0xC0000) / 64
    (List.range 4).any (fun i => whole (w - o + 64 * (48 * (q / 12) + q % 12 + 12 * i) + o % 64) 8)
/-- Bytes written; an error whose word or column is rewritten goes (27 R452). -/
def State.memWrite (s : State) (pa : Nat) (b : List Byte) : State :=
  { s with mem := Memory.write s.mem pa b,
           errs := if s.errs = [] then [] else s.errs.filter (fun w => !rewritten pa b.length w),
           soft := if s.soft = [] then [] else s.soft.filter (fun w => !rewritten pa b.length w) }
/-- The tile that a word or column belongs to (07 R114). -/
def errOwner (w : Nat) : Nat := if w < 2 ^ 48 then w / 2 ^ 29 % 512 else w / 2 ^ 20 % 512
/-- A read corrects the errors of the words and columns that it takes: each counts at its tile, and a word of a scratchpad
is rewritten (04 R77, 27 R451). -/
def State.correct (s : State) (takes : Nat → Bool) : State :=
  if s.soft = [] then s
  else
    (s.soft.filter takes).foldl (fun s w => s.mapTile (errOwner w) (fun t => { t with corrections := t.corrections + 1 }))
      { s with soft := s.soft.filter (fun w => w < 2 ^ 48 || !takes w) }
def State.correctIn (s : State) (pa len : Nat) : State := s.correct (errMeets pa len)
/-- The same for words of a tile's register files and stores. -/
def Tile.correctWords (t : Tile) (ws : List (Nat × Nat)) : Tile :=
  if t.soft = [] then t
  else { t with corrections := t.corrections + (t.soft.filter ws.contains).length
                soft := t.soft.filter (fun w => !ws.contains w) }

/-! The vector file's banks (11 R197) -/

/-- Surviving panels P. -/
def Tile.panels (t : Tile) : Nat := 4 * t.vbanks.length
/-- The physical panel of logical panel k: the k-th that survives. -/
def Tile.physPanel (t : Tile) (k : Nat) : Nat := 4 * t.vbanks.getD (k / 4) 0 + k % 4

/-! The place of the operation being issued -/

/-- Where and when an operation issues: tile, sc, slot (mask bit of 02 R30), bundle address. -/
structure Env where
  n : Nat
  now : Nat
  slot : Nat
  addr : Nat
  panels : Nat
deriving DecidableEq, Repr

def State.env (s : State) : Env :=
  { n := s.cur.tile, now := s.now s.cur.tile, slot := s.cur.slot, addr := s.cur.addr,
    panels := (s.tile s.cur.tile).panels }

/-- Issuing an operation: the state with its effects begun, or the trap it takes. -/
abbrev Issue := State → Except Trap State

/-- An operation that acts on its own tile's parts alone. -/
def onTile (f : Env → Tile → Except Trap Tile) : Issue := fun s =>
  match f s.env (s.tile s.cur.tile) with
  | .ok t => .ok (s.setTile s.cur.tile t)
  | .error tr => .error tr

/-! Traps -/

/-- UNDEF or RESCOMBO of a slot (03 R75). -/
def trapReason (code : BitVec 8) (reason slot : Nat) : Trap :=
  ⟨code, BitVec.ofNat 64 (reason * 256 + slot), false⟩
def undef (reason slot : Nat) : Trap := trapReason 0x01 reason slot
def rescombo (reason slot : Nat) : Trap := trapReason 0x02 reason slot
def priv (slot : Nat) : Trap := trapReason 0x03 0 slot
def drainTrap (reason slot : Nat) : Trap := trapReason 0x05 reason slot
/-- ALIGNF (10 R179). -/
def alignf (slot a : Nat) : Trap := ⟨0x12, BitVec.ofNat 64 (slot * 2 ^ 60 + a % 2 ^ 57), false⟩
/-- BUSY (27 R432): code and accumulator. -/
def busy (code acc : Nat) : Trap := ⟨0x0C, BitVec.ofNat 64 (acc * 256 + code), false⟩
/-- The layout that SPORT, vault traps, SLIP, LOOPF and HOLDTO share: BADDR, SUB and the low 24 bits. -/
def trapAt (code : BitVec 8) (addr sub low : Nat) : Trap :=
  ⟨code, BitVec.ofNat 64 (addr % 2 ^ 24 * 2 ^ 32 + sub * 2 ^ 24 + low % 2 ^ 24), false⟩
/-- RACE (09 R168). -/
def raceTrap (addr slot sub gran wp : Nat) : Trap :=
  ⟨0x0F, BitVec.ofNat 64 (wp * 2 ^ 50 + addr % 2 ^ 24 * 2 ^ 26 + sub * 2 ^ 18 + gran * 16 + slot), false⟩
/-- SPDATA (27 R433). -/
def spdata (addr slot sub loc : Nat) : Trap := trapAt 0x0E addr sub (loc * 16 + slot)

/-- Fails with a trap where a condition does not hold. -/
def need (ok : Bool) (tr : Trap) : Except Trap Unit := if ok then .ok () else .error tr

/-! Pending effects -/

/-- The place of an effect within its sc (11 R41, 14 R271, 09 R154). -/
def Act.rank : Act → Nat
  | .rng _ => 0
  | .special _ _ => 1
  | .spadWr _ _ _ | .land _ _ _ _ _ _ | .atomClaim _ _ => 3
  | .mseqStep _ | .mseqEnd _ | .pass1 _ _ _ => 4
  | .sample _ _ _ _ _ | .gather _ _ | .lddRead _ _ _ _ _ | .ldwbRead _ _ _ _ _ | .atomRead _ _ _ _ _ _ _
  | .strRead _ _ => 5
  | _ => 2

def Pend.before (a b : Pend) : Bool :=
  a.due < b.due || (a.due == b.due && (a.rank < b.rank || (a.rank == b.rank && a.seq ≤ b.seq)))
/-- A pending effect put after those that come before it or with it. -/
def pendInsert (p : Pend) : List Pend → List Pend
  | [] => [p]
  | q :: r => if q.before p then q :: pendInsert p r else p :: q :: r

def Tile.pushAs (t : Tile) (seq addr slot due : Nat) (a : Act) : Tile :=
  { t with pend := pendInsert ⟨due, a.rank, seq, addr, slot, a⟩ t.pend }
/-- An effect of the operation being issued. -/
def Tile.push (e : Env) (due : Nat) (a : Act) (t : Tile) : Tile :=
  t.pushAs t.seqNo e.addr e.slot due a
/-- Effects of the operation being issued, all in one sc. -/
def Tile.pushAll (e : Env) (due : Nat) (as : List Act) (t : Tile) : Tile :=
  as.foldl (fun t a => t.push e due a) t
/-- The next operation's place in the order of issue. -/
def Tile.nextSeq (t : Tile) : Tile := { t with seqNo := t.seqNo + 1 }

/-- A condition that falls due at the boundary of this sc (04 R95). -/
def Tile.addBoundary (rank : Nat) (tr : Trap) (tpc : Option Nat) (t : Tile) : Tile :=
  { t with trap := { t.trap with pending := t.trap.pending ++ [(rank, tr, tpc)] } }

/-! Registers written -/

def Regs.orFlags (r : Regs) (f : Flags) : Regs := { r with flags := r.flags ||| f }
def Tile.mapRegs (t : Tile) (f : Regs → Regs) : Tile := { t with regs := f t.regs }
def Tile.mapSeq (t : Tile) (f : Seq → Seq) : Tile := { t with seq := f t.seq }

/-- A scalar written; s0 discards every write (11 R194). -/
def Regs.setScalar (r : Regs) (sup : Bool) (n : Nat) (v : BitVec 64) : Regs :=
  if sup then { r with ss := sset 0 r.ss n v }
  else if n = 0 then r else { r with sc := sset 0 r.sc n v }
/-- A predicate written; p0 discards every write (R195). -/
def Regs.setPred (r : Regs) (p : Nat) (b : Bool) : Regs :=
  if p = 0 then r
  else { r with preds := BitVec.ofNat 16 (pack 1 (fun i => if i = p then b.toNat else r.preds.toNat / 2 ^ i % 2) 16) }

end Sys2Proof.Machine
end

