-- ==== Sys2Proof/Machine/Spad.lean ====
section
/-! DEFINITION. The scratchpad of 09_scratchpad_and_barriers.md: its bytes, the port rule (R153-R157), the errors of
R152, and windows, parties and claims (R162-R168). -/
namespace Sys2Proof.Machine

/-- Bytes of a scratchpad (R151). -/
def spadSize : Nat := 0xC0000
/-- The physical address of byte 0 of a tile's scratchpad (07 R114, region 0x1). -/
def spadBase (n : Nat) : Nat := 2 ^ 48 + n * 2 ^ 20

def State.spadRead (s : State) (n a len : Nat) : List Byte := Memory.read s.mem (spadBase n + a) len
/-- Bytes written (27 R452). -/
def State.spadWrite (s : State) (n a : Nat) (b : List Byte) : State := s.memWrite (spadBase n + a) b

/-! ### The port rule -/

/-- A static access: its port sc, whether it writes, and its granule (R153). -/
structure Port where
  sc : Nat
  write : Bool
  gran : Nat
deriving DecidableEq, Repr

/-- The reservation that holds a side in an sc. -/
def findSide (rs : List Resv) (sc : Nat) (side : Side) (bank : Nat) : Option Resv :=
  rs.find? (fun r => r.sc == sc && r.side == side && r.bank == bank)

/-- Takes one side for a user; a side that serves something else is a conflict (R154). -/
def takeSide (sc : Nat) (side : Side) (bank what : Nat) (user : Nat × Option Nat) (rs : List Resv) :
    Except (Side × Nat) (List Resv) :=
  match findSide rs sc side bank with
  | none => .ok (⟨sc, side, bank, what, [user]⟩ :: rs)
  | some r =>
    if r.what = what then
      .ok (rs.map (fun q => if q.sc == sc && q.side == side && q.bank == bank then { q with users := user :: q.users } else q))
    else .error (side, bank)

/-- The other member banks of a bank's parity group (R151). -/
def otherMembers (bank : Nat) : List Nat := ((List.range 4).map (fun i => bank % 12 + 12 * i)).filter (· != bank)

/-- The sides of a rebuilt read of granule g (R155). The read of a source shares its read side with a read of that same
source granule, as R154 has it of several reads of one granule (DEDUCED, log entry 62). -/
def takeRebuild (sc slot g : Nat) (rs : List Resv) : Except (Side × Nat) (List Resv) :=
  match (otherMembers (g % 48)).foldl
      (fun acc b => acc.bind (takeSide sc .dataRead b (48 * (g / 48) + b) (slot, some g))) (Except.ok rs) with
  | .ok rs => takeSide sc .parRead (g % 12) (g / 48) (slot, some g) rs
  | .error e => .error e

/-- Places one access (R154-R156): M0 is slot 7, M1 slot 8. -/
def placeOne (slot : Nat) (p : Port) (rs : List Resv) : Except (Side × Nat) (List Resv) :=
  if p.write then
    (takeSide p.sc .dataWrite (p.gran % 48) p.gran (slot, none) rs).bind
      (takeSide p.sc .parWrite (p.gran % 12) p.gran (slot, none))
  else
    match findSide rs p.sc .dataRead (p.gran % 48) with
    | none => takeSide p.sc .dataRead (p.gran % 48) p.gran (slot, none) rs
    | some r =>
      if r.what = p.gran then takeSide p.sc .dataRead (p.gran % 48) p.gran (slot, none) rs
      else if slot = 8 && r.users.contains (7, none) then takeRebuild p.sc slot p.gran rs
      else if slot = 7 && r.users.all (· == (8, none)) then
        match takeRebuild p.sc 8 r.what (rs.filter (· != r)) with
        | .ok rs => takeSide p.sc .dataRead (p.gran % 48) p.gran (slot, none) rs
        | .error _ => .error (.dataRead, p.gran % 48)
      else .error (.dataRead, p.gran % 48)

def Side.sub : Side → Nat
  | .dataRead => 0x80
  | .dataWrite => 0x81
  | .parRead => 0x82
  | .parWrite => 0x83

def Port.before (a b : Port) : Bool := a.sc < b.sc || (a.sc == b.sc && a.gran ≤ b.gran)
def portInsert (p : Port) : List Port → List Port
  | [] => [p]
  | q :: r => if q.before p then q :: portInsert p r else p :: q :: r
def portSort (ps : List Port) : List Port := ps.foldr portInsert []

/-- Places the accesses of one slot in ascending port sc, then granule; SPORT where one cannot be placed (R156,
R157). -/
def reserve (e : Env) (ps : List Port) (t : Tile) : Except Trap Tile :=
  let rec go : List Port → List Resv → Except Trap (List Resv)
    | [], rs => .ok rs
    | p :: r, rs =>
      match placeOne e.slot p rs with
      | .ok rs => go r rs
      | .error (side, bank) =>
        .error (trapAt 0x0D e.addr side.sub (((p.sc - e.now) % 256) * 2 ^ 16 + bank * 2 ^ 10 + e.slot))
  match go (portSort ps) t.ports with
  | .ok rs => .ok { t with ports := rs }
  | .error tr => .error tr

/-- The granules of the bytes a to a + len - 1. -/
def gransOf (a len : Nat) : List Nat :=
  (List.range ((a + len - 1) / 64 + 1 - a / 64)).map (fun i => a / 64 + i)
/-- Static accesses of one kind, to the granules of a byte span. -/
def portsOf (sc : Nat) (write : Bool) (a len : Nat) : List Port := (gransOf a len).map (fun g => ⟨sc, write, g⟩)

/-- The address rule of R178: aligned, and within the scratchpad. -/
def spadOk (ea align size : Nat) : Bool := ea % align == 0 && ea + size ≤ spadSize

/-! ### Errors (R152) -/

/-- The granules of a read of bytes a to a + len - 1, each with the words it takes: its own, or, for a granule that is
rebuilt in this sc, those of the three other members and of the parity bank at the same place. -/
def State.readWords (s : State) (n a len sc slot : Nat) : List (Nat × List Nat) :=
  (gransOf a len).map (fun g =>
    let lo := if a ≤ 64 * g then 0 else (a - 64 * g) / 8
    let hi := if 64 * g + 63 ≤ a + len - 1 then 7 else (a + len - 1 - 64 * g) / 8
    let rebuilt := (s.tile n).ports.any (fun r => r.sc == sc && r.users.contains (slot, some g))
    let srcs := if rebuilt
      then (otherMembers (g % 48)).map (fun b => 64 * (48 * (g / 48) + b)) ++ [0xC0000 + 64 * (12 * (g / 48) + g % 12)]
      else [64 * g]
    (g, srcs.flatMap (fun q => (List.range (hi + 1 - lo)).map (fun w => spadBase n + q + 8 * (w + lo)))))
/-- The first granule of a read that meets an uncorrectable error. -/
def State.spadErr (s : State) (n a len sc slot : Nat) : Option Nat :=
  if s.errs = [] then none
  else ((s.readWords n a len sc slot).find? (fun p => p.2.any s.errs.contains)).map (·.1)
/-- The errors that a read corrects (27 R451). -/
def State.spadCorrect (s : State) (n a len sc slot : Nat) : State :=
  if s.soft = [] then s
  else
    let ws := (s.readWords n a len sc slot).flatMap (·.2)
    s.correct (fun w => ws.contains w)

/-! ### Windows, parties and claims -/

/-- The window that holds a byte (R162). -/
def Tile.window (t : Tile) (a : Nat) : Option Win := t.wins.find? (fun w => w.base ≤ a && a < w.base + w.size)
/-- A barrier record; an unlisted one is at reset (R169). -/
def Bar.reset : Bar :=
  { err := 0, flags := 0, lerr := 0, lflags := 0, scope := 0, bedw := 0, bedh := 0, phase := false, armed := false,
    lesub := 0, esub := 0, byteExp := 0, byteCnt := 0, arrExp := 0, arrCnt := 0, seen := false, seenAt := [],
    tested := false }
def Tile.bar (t : Tile) (b : Nat) : Bar := aget Bar.reset t.bars b
def Tile.setBar (t : Tile) (b : Nat) (r : Bar) : Tile := { t with bars := aset t.bars b r }

/-- The instance of a barrier that contains a tile: its south-west logical tile and its size (R170). -/
structure Inst where
  x0 : Nat
  y0 : Nat
  w : Nat
  h : Nat
deriving DecidableEq, Repr
def instOf (pl : Plot) (lx ly : Nat) (b : Bar) : Inst :=
  match b.scope.toNat with
  | 1 => ⟨lx / 2 ^ b.bedw.toNat * 2 ^ b.bedw.toNat, ly / 2 ^ b.bedh.toNat * 2 ^ b.bedh.toNat,
          Nat.min (2 ^ b.bedw.toNat) pl.w, Nat.min (2 ^ b.bedh.toNat) pl.h⟩
  | 2 => ⟨0, 0, pl.w, pl.h⟩
  | _ => ⟨lx, ly, 1, 1⟩
def Inst.has (i : Inst) (lx ly : Nat) : Bool := i.x0 ≤ lx && lx < i.x0 + i.w && i.y0 ≤ ly && ly < i.y0 + i.h
/-- The rank of a tile within an instance (R164). -/
def Inst.rank (i : Inst) (lx ly : Nat) : Nat := (ly - i.y0) * i.w + (lx - i.x0)
/-- The physical tiles of an instance on this module. -/
def Inst.tiles (pl : Plot) (i : Inst) : List Nat :=
  ((List.range (i.w * i.h)).filter (fun r => pl.mine (i.x0 + r % i.w) (i.y0 + r / i.w))).map (fun r =>
    pl.tileAt (i.x0 + r % i.w) (i.y0 + r / i.w))
/-- An instance has tiles on other modules too (09 R170, R173). -/
def Inst.spans (pl : Plot) (i : Inst) : Bool := (Inst.tiles pl i).length != i.w * i.h

/-- The three kinds of checked access (R166). -/
inductive Claim where
  | read | write | awrite
deriving DecidableEq, Repr

/-- The rule of R166 on one tag: the new tag, or the sub-code of the race. -/
def claimTag (k : Claim) (tag : BitVec 11) (p : Nat) : Except Nat (BitVec 11) :=
  let v := tag.getLsbD 10
  let fr := tag.getLsbD 9
  let wp := tag.toNat % 512
  match k with
  | .read =>
    if v && (wp != p || fr) then .error 0x90
    else .ok (if v then tag else BitVec.ofNat 11 (512 + wp))
  | .write =>
    if v && (wp != p || fr) then .error 0x91
    else if !v && fr then .error 0x92
    else .ok (BitVec.ofNat 11 (1024 + p % 512))
  | .awrite =>
    if v && wp != p then .error 0x91
    else if !v && fr then .error 0x92
    else .ok (BitVec.ofNat 11 (1024 + 512 + p % 512))

/-- The rank of a party at logical coordinates for accesses to a window of tile n (R164), 0 outside a plot. -/
def State.partyAt (s : State) (n lx ly : Nat) (w : Win) : Nat :=
  match s.plotOf n with
  | some pl =>
    let t := s.tile n
    (instOf pl t.lx t.ly (t.bar w.bar)).rank lx ly
  | none => 0

/-- The tags of the granules after an access by the party at logical coordinates, every granule checked before any tag
changes; or the sub-code, the granule and the tag's WP of the lowest race (R166). -/
def State.claimAt (s : State) (n lx ly : Nat) (k : Claim) (gs : List Nat) : Except (Nat × Nat × Nat) (Store 11) :=
  let t := s.tile n
  gs.foldl (fun acc g =>
    match acc with
    | .error e => .error e
    | .ok tags =>
      match t.window (64 * g) with
      | some w =>
        if w.shared then
          match claimTag k (sget 0 tags g) (s.partyAt n lx ly w) with
          | .ok tag => .ok (sset 0 tags g tag)
          | .error sub => .error (sub, g, (sget 0 tags g).toNat % 512)
        else .ok tags
      | none => .ok tags) (Except.ok t.tags)
/-- The same by party m, a tile of this module. -/
def State.claim (s : State) (n m : Nat) (k : Claim) (gs : List Nat) : Except (Nat × Nat × Nat) (Store 11) :=
  s.claimAt n (s.tile m).lx (s.tile m).ly k gs

/-- A static access whose port sc is its issue sc: its errors and its claim, taken at issue (R152, R168). -/
def issueClaim (k : Claim) (a len : Nat) : Issue := fun s =>
  let e := s.env
  match (if k = .read then s.spadErr e.n a len e.now e.slot else none) with
  | some g => .error (spdata e.addr e.slot 0xD0 g)
  | none =>
    match s.claim e.n e.n k (gransOf a len) with
    | .ok tags =>
      let s := s.mapTile e.n (fun t => { t with tags := tags })
      .ok (if k = .read then s.spadCorrect e.n a len e.now e.slot else s)
    | .error (sub, g, wp) => .error (raceTrap e.addr e.slot sub g wp)

end Sys2Proof.Machine
end

