-- ==== Sys2Proof/Machine/Matrix.lean ====
section
/-! DEFINITION. The matrix engine: operands, format pairs, one DPU16 pass, and the running of an operation and of the
steps of an MSEQ (16_matrix_engine.md, 17 R328-R331). -/
namespace Sys2Proof.Machine

/-! ### Formats (R306-R308, R314) -/

/-- The number of planes of a bit-plane code, 0 for another (12 R216). -/
def bpK : Fmt → Nat
  | .bp2 => 2 | .bp3 => 3 | .bp4 => 4 | .bp5 => 5 | .bp6 => 6 | .bp7 => 7 | .bp8 => 8
  | _ => 0
/-- The rate of an operand's class, 0 for a format no operand has (R307). -/
def classRate : Fmt → Nat
  | .f32 | .i16 => 1024
  | .bf16 | .f16 => 4096
  | .e5m2 | .e4m3 | .e3m2 | .e2m3 | .i8 | .u8 | .bp5 | .bp6 | .bp7 | .bp8 => 8192
  | .e2m1 | .i4 | .u4 | .bp2 | .bp3 | .bp4 => 16384
  | _ => 0
/-- A pair that the table of R307 gives a rate. -/
def pairLegal (a b : Fmt) : Bool :=
  let withI16 : Fmt → Bool
    | .bf16 | .f16 | .e5m2 | .e4m3 | .e3m2 | .e2m3 | .e2m1 | .i16 | .i8 => true
    | _ => false
  if a = .f32 || b = .f32 then a = .f32 && b = .f32
  else if a = .i16 then withI16 b
  else if b = .i16 then withI16 a
  else true
/-- Codes 0 to 19, which a matrix operand may have (17 R325). -/
def matFmt (f : Fmt) : Bool := classRate f != 0
def Fmt.intLike (f : Fmt) : Bool := bpK f != 0 || (intOf f).isSome
/-- The pair runs in I32 mode (R308). -/
def pairI32 (a b : Fmt) : Bool := Fmt.intLike a && Fmt.intLike b
/-- The decompressor mode suits B's format (R306). -/
def dmodeOk (b : Fmt) : DMode → Bool
  | .none => bpK b = 0
  | .s24 => bpK b = 0 && b != .f32 && b != .i16
  | .bpl => bpK b != 0
/-- Occupancy in sc (R314). -/
def occupancy (a b : Fmt) (d : DMode) : Nat :=
  131072 / (Nat.min (classRate a) (classRate b) * (if d = .s24 then 2 else 1))
/-- K-blocks in one A row (R302). -/
def rowBlocks (a : Fmt) : Nat := 64 / fmtWidth a
/-- Granules of a B block (R304). -/
def blockSize (b : Fmt) : DMode → Nat
  | .none => 4 * fmtWidth b
  | .s24 => 2 * fmtWidth b + 4
  | .bpl => 32

/-! ### Operands -/

/-- The k-bit value of element e of a bit-plane group, from the group's 512 bits (12 R222, R223). -/
def bpValue (k group e : Nat) : Int :=
  intVal k true (pack 1 (fun i => part 1 group (64 * (k - 1 - i) + e)) k)

/-- Element i of an A row (R302). -/
def aElem (f : Fmt) (row : Row) (i : Nat) : Num :=
  if bpK f = 0 then elemValue f (rowElem row (fmtWidth f) i)
  else Num.ofInt (bpValue (bpK f) (part 512 row.toNat (i / 64)) (i % 64))

/-- Granule g of a half. -/
def Tile.wbGran (t : Tile) (half : Bool) (g : Nat) : Nat := (sget 0 t.regs.wb (1024 * half.toNat + g)).toNat
/-- Field i of width w of the block that starts at granule o. -/
def Tile.blockPart (t : Tile) (half : Bool) (o w i : Nat) : Nat :=
  part w (t.wbGran half (o + w * i / 512)) (w * i % 512 / w)

/-- Element k of column n of a B block; none where 2:4 mode has pruned it (R304, R305). -/
def Tile.bElem (t : Tile) (x : XOp) (n k : Nat) : Option Num :=
  let w := fmtWidth x.fb
  match x.dmode with
  | .none => some (elemValue x.fb (t.blockPart x.half x.goff w (32 * n + k)))
  | .bpl => some (Num.ofInt (bpValue (bpK x.fb) (t.wbGran x.half (x.goff + n / 2)) (32 * (n % 2) + k)))
  | .s24 =>
    let md := t.blockPart x.half x.goff 32 (32 * w + n)
    let g := k / 4
    let v (i : Nat) : Option Num := some (elemValue x.fb (t.blockPart x.half x.goff w (16 * n + i)))
    if part 2 md (2 * g) = k % 4 then v (2 * g)
    else if part 2 md (2 * g + 1) = k % 4 then v (2 * g + 1)
    else none

/-! ### One pass (R309-R311) -/

def numInt : Num → Int
  | .fin n m _ _ => if n then -(m : Int) else m
  | _ => 0

/-- A cell of a pass in I32 mode. -/
def cellI32 (c : Nat) (a : List Num) (b : List (Option Num)) : Nat :=
  lowBits 32 ((a.zip b).foldl (fun s p => match p.2 with
    | some y => s + numInt p.1 * numInt y
    | none => s) (c : Int))

/-- A term in the window of R310: the magnitude truncated toward zero to a multiple of 2^(emax - 23). -/
def windowTerm (emax : Int) : Num → Int
  | .fin n m e _ =>
    let k := e + 23 - emax
    let v := m * 2 ^ k.toNat / 2 ^ (-k).toNat
    if n then -(v : Int) else v
  | _ => 0
/-- floor(log2 |x|) of a nonzero finite value. -/
def topExp : Num → Int
  | .fin _ m e _ => (Nat.log2 m : Int) + e
  | _ => 0

/-- A cell of a pass in FP32 mode: sigma is the scale exponent, bad says that a scale is 0xFF, which makes every product
a NaN (R309), so that none is an infinity. -/
def cellF32 (c : Nat) (a : List Num) (b : List (Option Num)) (sigma : Int) (bad : Bool) : Nat × Flags :=
  let cv := elemValue .f32 c
  let live := (a.zip b).filterMap (fun p => p.2.map (fun y => (p.1, y)))
  let prods := live.map (fun p => mulNum p.1 p.2)
  let vals := cv :: prods.map (fun p => p.1.scale sigma)
  let opposed := !bad && vals.contains (.inf false) && vals.contains (.inf true)
  if bad || opposed || vals.any Num.isNan then
    (0x7FC00000, fIf (opposed || cv.isSNan || prods.any (fun p => p.2 == fNV)) fNV)
  else if vals.contains (.inf false) then (0x7F800000, fNone)
  else if vals.contains (.inf true) then (0xFF800000, fNone)
  else
    let nz := vals.filter (fun x => !x.isZero)
    match nz with
    | [] => (if vals.all Num.neg then 0x80000000 else 0, fNone)
    | z :: _ =>
      let emax := nz.foldl (fun m x => if m < topExp x then topExp x else m) (topExp z)
      let sum := nz.foldl (fun s x => s + windowTerm emax x) 0
      roundFmt fp32 .rne false 0 (Num.ofScaled sum (emax - 23))

/-- A row of cells from a list. -/
def rowOfList (cs : List Nat) : Row := BitVec.ofNat 2048 (cs.foldr (fun c acc => c % 2 ^ 32 + 2 ^ 32 * acc) 0)

/-- Scale i of a side of the bank an operation names. -/
def Tile.scale (t : Tile) (bank side i : Nat) : Nat :=
  part 8 (sget (BitVec.ofNat 512 (pack 8 (fun _ => 127) 64)) t.regs.lat (2 * bank + side)).toNat i

/-- Pass p of an operation on the rows c: the new rows and the flags of all cells (R310, R312). -/
def Tile.pass (t : Tile) (x : XOp) (p : Nat) (c : List Row) : List Row × Flags :=
  let ks := (List.range 16).map (fun k => 16 * p + k)
  let cols := (List.range 64).map (fun n => ks.map (fun k => t.bElem x n k))
  let bank := match x.scl with | .none => none | .l0 => some 0 | .l1 => some 1
  let cs := match bank with
    | some b => if x.i32 then [] else (List.range 64).map (fun n => t.scale b 1 n)
    | none => []
  let one (m : Nat) (row : Row) (a : List Num) : Row × Flags :=
    let rs : Nat := match bank with | some b => t.scale b 0 m | none => 127
    let cells := ((List.range 64).zip cols).map (fun q =>
      let cell := rowCell row q.1
      if x.i32 then (cellI32 cell a q.2, fNone)
      else
        let sc : Nat := (cs[q.1]?).getD 127
        cellF32 cell a q.2 ((rs : Int) + (sc : Int) - 254) (bank.isSome && (rs = 255 || sc = 255)))
    (rowOfList (cells.map (·.1)), cells.foldl (fun f q => f ||| q.2) fNone)
  let out := ((List.range 64).zip (c.zip x.rows)).map (fun q =>
    one q.1 q.2.1 (ks.map (fun k => aElem x.fa q.2.2 (32 * x.ksel + k))))
  (out.map (·.1), out.foldl (fun f q => f ||| q.2) fNone)

/-! ### An operation in time (R313, R314, R319) -/

/-- The accumulator's rows with every write under way taken as made (R319, 17 R332, R333). -/
def Tile.chained (t : Tile) (a : Nat) : List Row :=
  t.pend.foldl (fun rows p => match p.act with
    | .accRow b m v => if b = a then rows.set m v else rows
    | .accFill b => if b = a then rows.map (fun _ => 0) else rows
    | .ready b v _ => if b = a then v else rows
    | _ => rows) ((List.range 64).map (fun m => t.accRow a m))

/-- Starts one operation: its A rows are read, pass 0 runs, pass 1 is to come (R303, R313). -/
def Tile.startOp (t : Tile) (seq addr slot now : Nat) (x : XOp) (arow : Nat) (zero : Bool) : Tile :=
  let x := { x with rows := (List.range 64).map (fun m => t.vrow (arow + m)) }
  let c := if zero then List.replicate 64 0 else t.chained x.acc
  let r := t.pass x 0 c
  t.pushAs seq addr slot (now + x.occ / 2) (.pass1 x r.1 r.2)
/-- Pass 1, after which the result is on its way (R313, R314). -/
def Tile.secondPass (t : Tile) (p : Pend) (x : XOp) (c : List Row) (f : Flags) : Tile :=
  let r := t.pass x 1 c
  t.pushAs p.seq p.addr p.slot (p.due + (x.occ - x.occ / 2) + 8) (.ready x.acc r.1 (f ||| r.2))
/-- A result lands in its accumulator. -/
def Regs.setAcc (r : Regs) (a : Nat) (v : List Row) : Regs :=
  { r with acc := ((List.range 64).zip v).foldl (fun m q => sset 0 m (64 * a + q.1) q.2) r.acc }

/-! ### MSEQ (17 R328-R331) -/

/-- The fields of the parameter word. -/
structure SeqParam where
  nstep : Nat
  kn : Nat
  cadv : Bool
  arst : Bool
  brst : Bool
  half : Bool
  goff : Nat
deriving DecidableEq, Repr
def seqParam (w : BitVec 64) : SeqParam :=
  { nstep := (w.extractLsb' 33 12).toNat, kn := (w.extractLsb' 25 8).toNat, cadv := w.getLsbD 24,
    arst := w.getLsbD 23, brst := w.getLsbD 22, half := w.getLsbD 20, goff := (w.extractLsb' 10 10).toNat }
/-- The reserved bits of the parameter word are zero. -/
def seqReserved (w : BitVec 64) : Bool := w.toNat / 2 ^ 45 = 0 && !w.getLsbD 21 && w.toNat % 2 ^ 10 = 0

/-- The operands of a step: A row, selector, B granule, accumulator, and whether it zeroes (R329). -/
structure SeqStep where
  arow : Nat
  ksel : Nat
  goff : Nat
  acc : Nat
  zero : Bool
deriving DecidableEq, Repr
def seqStep (f : XSeq) (p : SeqParam) (i : Nat) : SeqStep :=
  let j := i % (p.kn + 1)
  let kpos := f.ksel.toNat + (if p.arst then j else i)
  let nb := rowBlocks f.fa
  { arow := viewRowNo f.av + 64 * (kpos / nb), ksel := kpos % nb,
    goff := p.goff + blockSize f.fb f.dmode * (if p.brst then j else i),
    acc := f.acc.toNat + (if p.cadv then i / (p.kn + 1) else 0), zero := f.zrun && j = 0 }

def seqOcc (f : XSeq) : Nat := occupancy f.fa f.fb f.dmode

/-- Starts step i of an MSEQ; the next one, or its end, follows after its occupancy (R330). -/
def Tile.startStep (t : Tile) (seq addr slot now : Nat) (f : XSeq) (param : BitVec 64) (i : Nat) : Tile :=
  let p := seqParam param
  let st := seqStep f p i
  let x : XOp := { acc := st.acc, i32 := pairI32 f.fa f.fb, fa := f.fa, fb := f.fb, ksel := st.ksel,
                   dmode := f.dmode, scl := f.scl, half := p.half, goff := st.goff, occ := seqOcc f, rows := [] }
  let t := t.startOp seq addr slot now x st.arow st.zero
  let cp := match t.mx.mseq with | some m => m.cp | none => 0
  { t with mx := { t.mx with mseq := some ⟨addr, f, param, i + 1, cp⟩ } }.pushAs seq addr slot (now + seqOcc f)
    (if i = p.nstep then .mseqEnd (i + 1) else .mseqStep (i + 1))

end Sys2Proof.Machine
end

