-- ==== Sys2Proof/Machine/Selvage.lean ====
section
/-! DEFINITION. The selvage stream and the partition counters (29_observation.md R475-R478, R481): writing a record
into its rings, and counting an event. -/
namespace Sys2Proof.Machine

/-- Partition of a context. -/
def State.partOf (s : State) (c : Nat) : Nat := (aget Ctx.reset s.ctxs c).part.toNat
/-- The selvage clock at a master pulse: ns since module reset, four master pulses a ns, aligned to the clock of module 0
of the plot group (R476, 00 R6). -/
def State.nsAt (s : State) (mp : Nat) : Nat := (mp / 4 + s.nsOff.toNat) % 2 ^ 64
def State.ns (s : State) : Nat := s.nsAt s.mp

/-- An event counted by every counter of a partition that has its code (R481). -/
def State.countEvent (s : State) (p code k : Nat) : State :=
  match afind s.parts p with
  | none => s
  | some q =>
    { s with parts := aset s.parts p { q with counts :=
        (q.codes.filter (fun c => c.2.toNat == code)).foldl (fun l c =>
          aset l c.1 (aget 0 l c.1 + BitVec.ofNat 64 k)) q.counts } }

/-- A record written to a ring, or dropped where the ring is full as hardware knows it (R478)
(DESIGN CHOICE, log entry 27). -/
def State.ringPut (s : State) (r p : Nat) (rec : Nat) : State :=
  match afind s.rings r with
  | none => s
  | some q =>
    let tail := leNat (Memory.read s.mem q.ctl 8)
    let head := leNat (Memory.read s.mem (q.ctl + 8) 8)
    let s := { s with rings := aset s.rings r { q with headSeen := BitVec.ofNat 64 head } }
    if 2 ^ q.size ≤ (tail + 2 ^ 64 - head) % 2 ^ 64 then
      let lost := leNat (Memory.read s.mem (q.ctl + 16) 8)
      (s.memWrite (q.ctl + 16) (leBytes 8 (Nat.min (lost + 1) (2 ^ 64 - 1)))).countEvent p 11 1
    else
      (s.memWrite (q.base + 32 * (tail % 2 ^ q.size)) (leBytes 32 rec)).memWrite q.ctl (leBytes 8 (tail + 1))

/-- A selvage record of a context: event, rank, A and B (R476-R478). -/
def State.record (s : State) (ev ctx rank a b : Nat) : State :=
  if s.rings = [] then s
  else
    let p := s.partOf ctx
    let w := s.ns % 2 ^ 64 * 2 ^ 192 + ev * 2 ^ 184 + ctx * 2 ^ 178 + p * 2 ^ 175 + rank % 2048 * 2 ^ 164 +
      a % 2 ^ 32 * 2 ^ 128 + b % 2 ^ 128
    let s := s.ringPut p p w
    if ctx = 0 || ev / 16 = 4 then s.ringPut 8 p w else s
/-- A record of a tile's own (rank as 09 R164). -/
def State.tileRecord (s : State) (n ev a b : Nat) : State :=
  match s.plotOf n with
  | some pl => s.record ev pl.ctx ((s.tile n).ly * pl.w + (s.tile n).lx) a b
  | none => s
/-- An event of a tile counted for the partition of its context. -/
def State.countTile (s : State) (n code k : Nat) : State :=
  match s.plotOf n with
  | some pl => s.countEvent (s.partOf pl.ctx) code k
  | none => s
/-- An operation whose issue is such an event. -/
def counted (code : Nat) (i : Issue) : Issue := fun s => (i s).map (fun s' => s'.countTile s.cur.tile code 1)

end Sys2Proof.Machine
end

