-- ==== Sys2Proof/Machine/MatrixOps.lean ====
section
/-! DEFINITION. Issuing the X and K operations (17_matrix_instructions.md, 16 R315-R318). -/
namespace Sys2Proof.Machine

/-- A sc up to which a numbered accumulator is held, 0 if it is not. -/
def heldTo (l : List (Nat × Nat)) (a : Nat) : Nat := aget 0 l a
def Mx.inFlight (m : Mx) (a now : Nat) : Bool := now < heldTo m.flight a
def Mx.inMove (m : Mx) (a now : Nat) : Bool := now < heldTo m.moving a
def Mx.load (m : Mx) (h : Bool) : Nat := if h then m.load1 else m.load0
def Mx.halfFree (m : Mx) (h : Bool) : Nat := if h then m.half1 else m.half0
/-- A half in use until a sc (16 R317). -/
def Mx.useHalf (m : Mx) (h : Bool) (until_ : Nat) : Mx :=
  if h then { m with half1 := Nat.max m.half1 until_ } else { m with half0 := Nat.max m.half0 until_ }
/-- An accumulator in flight until a sc (16 R314). -/
def Mx.fly (m : Mx) (a until_ : Nat) : Mx := { m with flight := aset m.flight a (Nat.max (heldTo m.flight a) until_) }

/-- The RESCOMBO reason of the formats of a matrix operation (17 R325). -/
def matCombo (fa fb : Fmt) (d : DMode) : Option Nat :=
  if !matFmt fa || !matFmt fb then some 0
  else if !pairLegal fa fb then some 1
  else if !dmodeOk fb d then some 2
  else none
/-- The geometry of R302 and R304: a panel row in fours of panels, a selector in range, a block inside its half. -/
def matPlace (e : Env) (fb : Fmt) (d : DMode) (arow acc goff : Nat) : Bool :=
  arow % 64 = 0 && arow + 64 ≤ 16 * e.panels && acc < 8 && goff + blockSize fb d ≤ 1024

def accI32 (t : Tile) (a : Nat) : Bool := t.regs.accMode.getLsbD a
def Regs.setMode (r : Regs) (a : Nat) (i32 : Bool) : Regs :=
  { r with accMode := BitVec.ofNat 8 (pack 1 (fun i => if i = a then i32.toNat else r.accMode.toNat / 2 ^ i % 2) 8) }

/-- An operation of one step, MMA or MMAZ (17 R325, R326, 16 R318). -/
def matOne (zero : Bool) (f : XMma) (e : Env) (t : Tile) : Except Trap Tile :=
  let a := f.acc.toNat
  let i32 := pairI32 f.fa f.fb
  let combo := match matCombo f.fa f.fb f.dmode with
    | some r => some r
    | none => if viewIsRow f.av && f.ksel.toNat < rowBlocks f.fa &&
        matPlace e f.fb f.dmode (viewRowNo f.av) a f.goff.toNat then none else some 3
  match combo with
  | some r => .error (rescombo r e.slot)
  | none =>
    if e.now < t.mx.array then .error (busy 0x43 0)
    else if zero && accI32 t a != i32 && (t.mx.inFlight a e.now || t.mx.inMove a e.now) then .error (busy 0x44 a)
    else if !zero && accI32 t a != i32 then .error (busy 0x45 a)
    else if e.now < t.mx.load f.half then .error (busy 0x46 0)
    else
      let occ := occupancy f.fa f.fb f.dmode
      let x : XOp := { acc := a, i32 := i32, fa := f.fa, fb := f.fb, ksel := f.ksel.toNat, dmode := f.dmode,
                       scl := f.scl, half := f.half, goff := f.goff.toNat, occ := occ, rows := [] }
      let t := t.startOp t.seqNo e.addr e.slot e.now x (viewRowNo f.av) zero
      .ok { t with regs := if zero then t.regs.setMode a i32 else t.regs,
                   mx := { ((t.mx.useHalf f.half (e.now + occ)).fly a (e.now + occ + 8)) with array := e.now + occ } }

def issueMma (f : XMma) : Issue := counted 6 (onTile (matOne false f))
def issueMmaz (f : XMma) : Issue := counted 6 (onTile (matOne true f))

/-- The busy codes of the steps of an MSEQ, with the modes that its zeroing steps set (17 R329). -/
def seqBusy (t : Tile) (now : Nat) (i32 : Bool) : List SeqStep → Regs → Option (Nat × Nat)
  | [], _ => none
  | st :: r, g =>
    let here :=
      if st.zero then
        if accI32 t st.acc != i32 && (t.mx.inFlight st.acc now || t.mx.inMove st.acc now) then some (0x44, st.acc)
        else none
      else if g.accMode.getLsbD st.acc != i32 then some (0x45, st.acc) else none
    let rest := seqBusy t now i32 r (if st.zero then g.setMode st.acc i32 else g)
    match here, rest with
    | some (c, a), some (c', a') => if c' < c then some (c', a') else some (c, a)
    | some x, none => some x
    | none, y => y

/-- An MSEQ's steps set up and its first one started (17 R328-R330). -/
def mseqTile (f : XSeq) (e : Env) (t : Tile) : Except Trap Tile :=
  let w := t.rs f.sp
  let p := seqParam w
  let i32 := pairI32 f.fa f.fb
  if !seqReserved w then .error (undef 1 e.slot)
  else
    let steps := (List.range (p.nstep + 1)).map (seqStep f p)
    let combo := match matCombo f.fa f.fb f.dmode with
      | some r => some r
      | none => if viewIsRow f.av && f.ksel.toNat < rowBlocks f.fa &&
          steps.all (fun st => matPlace e f.fb f.dmode st.arow st.acc st.goff) then none else some 3
    match combo with
    | some r => .error (rescombo r e.slot)
    | none =>
      if e.now < t.mx.array then .error (busy 0x43 0)
      else match seqBusy t e.now i32 steps t.regs with
        | some (c, a) => .error (busy c a)
        | none =>
          if e.now < t.mx.load p.half then .error (busy 0x46 0)
          else
            let occ := seqOcc f
            let fin := e.now + (p.nstep + 1) * occ
            let m := (t.mx.useHalf p.half fin)
            let idx := (List.range (p.nstep + 1)).zip steps
            let m := idx.foldl (fun m q => m.fly q.2.acc (e.now + q.1 * occ + occ + 8)) m
            let regs := steps.foldl (fun g st => if st.zero then g.setMode st.acc i32 else g) t.regs
            .ok ({ t with regs := regs, mx := { m with array := fin, mseqTo := fin + 8 } }.startStep t.seqNo e.addr e.slot e.now f w 0)

def issueMseq (f : XSeq) : Issue := fun s =>
  (counted 6 (onTile (mseqTile f)) s).map (fun s' => s'.tileRecord s.cur.tile 0x20 s.cur.addr 0)

/-- MZERO, MRD or MWR on an accumulator in flight (16 R318, 17 R333). -/
def moveBusy (toMwr : Bool) (a : Nat) (e : Env) (t : Tile) : Bool :=
  t.mx.inFlight a e.now || (!toMwr && t.mx.inMove a e.now)

def issueMzero (acc : BitVec 3) (i32 : Bool) : Issue := onTile fun e t =>
  let a := acc.toNat
  if moveBusy false a e t then .error (busy 0x44 a)
  else .ok ({ t with regs := t.regs.setMode a i32, mx := t.mx.fly a (e.now + 2) }.push e (e.now + 2) (.accFill a))

def issueMrd (f : XMove) : Issue := onTile fun e t =>
  let a := f.acc.toNat
  if !viewIsRow f.av then .error (rescombo 3 e.slot)
  else if moveBusy false a e t then .error (busy 0x44 a)
  else .ok (t.push e (e.now + 4) (.cells (viewRowNo f.av) allLanes (t.accRow a f.mrow.toNat)))

def issueMwr (f : XMove) : Issue := onTile fun e t =>
  let a := f.acc.toNat
  if !viewIsRow f.av then .error (rescombo 3 e.slot)
  else if moveBusy true a e t then .error (busy 0x44 a)
  else .ok ({ t with mx := { t.mx with moving := aset t.mx.moving a (e.now + 4) } }.push e (e.now + 4)
    (.accRow a f.mrow.toNat (t.vrow (viewRowNo f.av))))

/-- KSET: one side of a bank from bytes 0-63 of a row (17 R334). -/
def issueKset (bank side : Bool) (v : View) : Issue := onTile fun e t =>
  if !viewIsRow v then .error (rescombo 3 e.slot)
  else .ok (t.push e (e.now + 3)
    (.latch (2 * bank.toNat + side.toNat) (BitVec.ofNat 512 (t.vrow (viewRowNo v)).toNat)))
/-- The unity scale in all 64 places. -/
def unityLatch : Gran := BitVec.ofNat 512 (pack 8 (fun _ => 127) 64)
def issueKone (bank : Bool) : Issue := onTile fun e t =>
  .ok (t.pushAll e (e.now + 3) [.latch (2 * bank.toNat) unityLatch, .latch (2 * bank.toNat + 1) unityLatch])

end Sys2Proof.Machine
end

