-- ==== Sys2Proof/Machine/Sources.lean ====
section
/-! DEFINITION. Errors in register files and stores (27 R433, R452): the words an operation reads, the
SPDATA it meets at issue, and the words an effect rewrites. A word is named by its sub-code and a key: a row, a granule,
or in the files of 0xD4 the register number with 0 for scalars, 256 for predicates, 512 for directions, 768 for norms and
1024 for ss0-ss7 (at 48-55, as operands name them in supervisor mode), and in 0xD6 the latch number or 4 and the barrier
(48 for sb47). -/
namespace Sys2Proof.Machine

abbrev Words := List (Nat × Nat)

def rdScalar (r : BitVec 6) : Words := [(0xD4, r.toNat)]
def rdPred (p : BitVec 4) : Words := [(0xD4, 256 + p.toNat)]
def rdRows (r k : Nat) : Words := (List.range k).map (fun i => (0xD1, r + i))
def rdView : View → Words
  | .row r => [(0xD1, r.toNat)]
  | .col p _ | .diag p _ => rdRows (16 * p.toNat) 16
  | .spec k => rdScalar k
/-- A panel, or two. -/
def rdPanel (v : View) (k : Nat) : Words := match v with | .row r => rdRows r.toNat (16 * k) | v => rdView v
def rdDir (d k : Nat) : Words := (0xD4, 768 + d) :: (List.range k).map (fun i => (0xD4, 512 + d + i))
def rdNorm (d : BitVec 6) : Words := [(0xD4, 768 + d.toNat)]
def rdAmt : Amt → Words
  | .reg s => rdScalar s
  | .imm _ => []
/-- The rows of an accumulator. -/
def accWords (a : Nat) : Words := (List.range 64).map (fun m => (0xD2, 64 * a + m))
/-- A write on its way to row m of accumulator a, from which a later operation chains (16 R319). -/
def Act.suppliesAcc (a m : Nat) : Act → Bool
  | .accRow b k _ => b = a && k = m
  | .accFill b | .ready b _ _ => b = a
  | _ => false
/-- The rows of an accumulator that an operation reads from the file: those that it does not chain. -/
def rdAcc (t : Tile) (a : Nat) : Words :=
  ((List.range 64).filter (fun m => !t.pend.any (fun p => p.act.suppliesAcc a m))).map (fun m => (0xD2, 64 * a + m))
/-- The latches of a bank; an I32 pair ignores its bank (16 R309). -/
def rdScl (fa fb : Fmt) (s : Scl) : Words :=
  if pairI32 fa fb then []
  else match s with | .none => [] | .l0 => [(0xD6, 0), (0xD6, 1)] | .l1 => [(0xD6, 2), (0xD6, 3)]
def rdBlock (half : Bool) (o n : Nat) : Words := (List.range n).map (fun i => (0xD3, 1024 * half.toNat + o + i))
def rdOpnd (w : Nat) : NOpnd → Words
  | .row (.row r) => rdRows r.toNat (if w = 16 then 2 else 1)
  | .row v => rdView v
  | .scalar r | .spad r => rdScalar r
  | .none => []
/-- The address register of a destination. -/
def rdDest : NOpnd → Words
  | .spad r => rdScalar r
  | _ => []
def rdStamp : Stamp → Words
  | .reg k _ => rdScalar k
  | _ => []

/-- The words of the register files that an operation reads at issue. -/
def sources (t : Tile) : Instr → Words
  | .brp p _ _ => rdPred p
  | .ret => rdScalar 63
  | .jmps a _ | .loopv a _ | .mark a _ | .savept _ a | .movt a _ => rdScalar a
  | .waita a b _ _ _ _ _ => rdScalar a ++ rdScalar b
  | .bari bar _ _ _ _ b => (0xD6, 4 + bar.toNat) :: rdScalar b
  | .bara bar | .barw _ _ _ bar => [(0xD6, 4 + bar.toNat)]
  | .add _ a b | .sub _ a b | .mul _ a b | .mulh _ a b | .mulhu _ a b | .and _ a b | .or _ a b | .xor _ a b
  | .andn _ a b | .shl _ a b | .shr _ a b | .sar _ a b | .rol _ a b | .min _ a b | .max _ a b | .minu _ a b
  | .maxu _ a b | .extb _ a b _ | .cmpeq _ a b | .cmpne _ a b | .cmplt _ a b | .cmple _ a b | .cmpltu _ a b
  | .cmpleu _ a b | .fadd _ a b _ | .fsub _ a b _ | .fmul _ a b _ | .fcmplt _ a b | .fcmpeq _ a b | .movp a b =>
    rdScalar a ++ rdScalar b
  | .insb d a b _ => rdScalar d ++ rdScalar a ++ rdScalar b
  | .ffma _ a b x _ => rdScalar a ++ rdScalar b ++ rdScalar x
  | .sel _ a b p => rdScalar a ++ rdScalar b ++ rdPred p
  | .clz _ a | .popc _ a | .addi _ a _ | .andi _ a _ | .ori _ a _ | .xori _ a _ | .shli _ a _ | .shri _ a _
  | .sari _ a _ | .cmpeqi _ a _ | .cmplti _ a _ | .fcvti _ a _ _ _ _ | .fcvtf _ a _ _ _ => rdScalar a
  | .lih d _ => rdScalar d
  | .pand _ a b | .por _ a b | .pxor _ a b => rdPred a ++ rdPred b
  | .pnot _ a => rdPred a
  | .movps _ => (List.range 16).map (fun p => (0xD4, 256 + p))
  | .vadd f | .vsub f | .vmul f => rdView f.a ++ rdView f.b
  | .vfma f => rdView f.a ++ rdView f.b ++ rdView f.dst
  | .vmin f | .vmax f | .vand f | .vor f | .vxor f | .vshl f | .vshr f | .vsar f | .vcmpeq f | .vcmplt f | .vcmple f
  | .vmulh f => rdView f.a ++ rdView f.b
  | .vsel f => rdView f.a ++ rdView f.b ++ rdView f.dst
  | .vabs f | .vneg f => rdView f.a
  | .vmov _ _ a _ => rdView a
  | .vbcs _ _ a _ => rdScalar a
  | .viota _ _ a b _ => rdScalar a ++ rdScalar b
  | .vmadw _ _ _ d a b _ => rdView a ++ rdView b ++ rdView d
  | .vcvt f => rdView f.a ++ rdView f.dst
  | .vcvtef f => rdView f.a ++ rdView f.dst
  | .vsacc _ _ _ _ d a b _ => rdView a ++ rdView b ++ rdView d
  | .vrotr f | .vbcr f => rdView f.a ++ rdAmt f.amt
  | .vshfr f => (match f.a with | .row r => rdRows r.toNat 2 | v => rdView v) ++ rdAmt f.amt
  | .vrotc f | .vbcc f => rdPanel f.a 1 ++ rdAmt f.amt
  | .vshfc f => rdPanel f.a 2 ++ rdAmt f.amt
  | .vredr f => rdView f.a
  | .vredc f => rdPanel f.a 1
  | .vtrn _ _ a _ => rdPanel a 1
  | .vpart _ _ a _ _ | .vcnt _ _ a _ | .vargm _ _ _ a _ => rdView a
  | .dnorm fmt g _ a _ => (match a with
      | .row r => rdRows r.toNat ((if fmt = .f32 then 2 else 1) * g.size)
      | v => rdView v)
  | .dcvt _ g _ a _ => rdDir a.toNat g.size
  | .ddot f | .ddotn f | .dadd f | .dsub f | .dproj f => rdDir f.a.toNat f.g.size ++ rdDir f.b.toNat f.g.size
  | .dmix f => rdDir f.d.toNat f.g.size ++ rdDir f.a.toNat f.g.size ++ rdScalar f.b
  | .dscl f => rdNorm f.d ++ rdScalar f.a
  | .dneg f | .dmov f => rdDir f.a.toNat f.g.size
  | .dsim g _ a b _ => rdDir a.toNat g.size ++ rdDir b.toNat (16 * g.size)
  | .dzt _ _ a _ => rdNorm a
  | .dgetn f => rdNorm f.a
  | .dsetn f => rdScalar f.a
  | .frcp f | .frsq f | .fsqrt f | .fexp2 f | .flog2 f | .fsin f | .fcos f | .ftanh f | .fsigm f => rdView f.a
  | .fdiv _ _ _ a b _ => rdView a ++ rdView b
  | .sdiv f | .sdivu f | .srem f | .sremu f => rdScalar f.a ++ rdScalar f.b
  | .ldv _ m => rdScalar m.sa
  | .stv v m => rdScalar m.sa ++ rdView v
  | .lds _ _ _ m => rdScalar m.sa
  | .sts _ sb m => rdScalar m.sa ++ rdScalar sb
  -- s[SA] is the destination of the copy's id (08 R137)
  | .shcpy sb _ => rdScalar sb
  | .ldg v m => rdScalar m.sa ++ rdRows ((match v with | .row r => r.toNat | _ => 0) + 1) 1
  | .stg v m => rdScalar m.sa ++ rdRows (match v with | .row r => r.toNat | _ => 0) 2
  | .ldd _ _ m => rdScalar m.sa
  | .std g d m => rdScalar m.sa ++ rdDir d.toNat g.size
  | .ldwb _ sb sc m | .aadd _ sb sc m | .afadd _ sb sc m | .amin _ sb sc m | .amax _ sb sc m | .aminu _ sb sc m
  | .amaxu _ sb sc m | .aand _ sb sc m | .aor _ sb sc m | .axor _ sb sc m | .axch _ sb sc m | .acas _ sb sc m =>
    rdScalar m.sa ++ rdScalar sb ++ rdScalar sc
  | .aaddRem _ sb _ m | .afaddRem _ sb _ m | .aminRem _ sb _ m | .amaxRem _ sb _ m | .aminuRem _ sb _ m
  | .amaxuRem _ sb _ m | .aandRem _ sb _ m | .aorRem _ sb _ m | .axorRem _ sb _ m | .axchRem _ sb _ m
  | .acasRem _ sb _ m | .ldr _ sb _ m | .str _ sb _ m => rdScalar m.sa ++ rdScalar sb
  | .publ _ _ m => rdScalar m.sa
  | .shcan sa _ => rdScalar sa
  | .shqry _ sb _ => rdScalar sb
  | .mma f => rdRows (viewRowNo f.av) 64 ++ rdAcc t f.acc.toNat ++ rdBlock f.half f.goff.toNat (blockSize f.fb f.dmode) ++
      rdScl f.fa f.fb f.scl
  | .mmaz f => rdRows (viewRowNo f.av) 64 ++ rdBlock f.half f.goff.toNat (blockSize f.fb f.dmode) ++ rdScl f.fa f.fb f.scl
  | .mseq f =>
    let p := seqParam (t.rs f.sp)
    rdScalar f.sp ++ rdScl f.fa f.fb f.scl ++ (List.range (p.nstep + 1)).flatMap (fun i =>
      let st := seqStep f p i
      -- a step chains where an earlier step is on its accumulator
      let chains := (List.range i).any (fun j => (seqStep f p j).acc = st.acc)
      rdRows st.arow 64 ++ rdBlock p.half st.goff (blockSize f.fb f.dmode) ++
        (if st.zero || chains then [] else rdAcc t st.acc))
  | .mrd f => [(0xD2, 64 * f.acc.toNat + f.mrow.toNat)]
  | .mwr f => rdView f.av
  | .kset _ _ v _ => rdView v
  | .sdrv g o => rdOpnd (2 ^ g.width.toNat) o
  | .stap _ o st => rdDest o ++ rdStamp st
  | .sfwd _ o _ _ _ => rdDest o
  | .sred g o _ _ _ _ => rdOpnd (2 ^ g.width.toNat) o
  | _ => []

/-- The word that a word of the user files is in the tile's mode: in supervisor mode 48-55 are ss0-ss7 and barrier 47 is
sb47 (27 R435). -/
def Tile.modeWord (t : Tile) (w : Nat × Nat) : Nat × Nat :=
  if !t.trap.sup then w
  else if w.1 = 0xD4 && 48 ≤ w.2 && w.2 ≤ 55 then (0xD4, 1024 + w.2)
  else if w == (0xD6, 4 + 47) then (0xD6, 4 + 48)
  else w
/-- s0 and p0 read a constant (11 R194, R195). -/
def constWord (w : Nat × Nat) : Bool := w == (0xD4, 0) || w == (0xD4, 256)
/-- The words that an operation reads, in its tile's mode. -/
def Tile.readsOf (t : Tile) (i : Instr) : Words := ((sources t i).map t.modeWord).filter (fun w => !constWord w)
/-- SPDATA of the first bad word that an operation reads (27 R432, R433) (DEDUCED, log entry 31). -/
def Tile.badSource (t : Tile) (addr slot : Nat) (i : Instr) : Option Trap :=
  if t.bad = [] then none
  else ((t.readsOf i).find? t.bad.contains).map (fun w =>
    spdata addr slot w.1 (if w.1 = 0xD4 then w.2 % 256 else w.2))

/-- The words that an effect rewrites whole. -/
def Act.rewrites : Act → Words
  | .scalar sup r _ => [(0xD4, if sup then 1024 + 48 + r else r)]
  | .pred p _ => [(0xD4, 256 + p)]
  | .preds _ => (List.range 16).map (fun p => (0xD4, 256 + p))
  | .cells row mask _ => if mask = allLanes then [(0xD1, row)] else []
  | .comps d _ => [(0xD4, 512 + d)]
  | .norm d _ => [(0xD4, 768 + d)]
  | .accRow a m _ => [(0xD2, 64 * a + m)]
  | .accFill a | .ready a _ _ => accWords a
  | .latch k _ => [(0xD6, k)]
  | .bari b _ _ _ _ _ => [(0xD6, 4 + b)]
  | _ => []
def Tile.heal (t : Tile) (ws : Words) : Tile :=
  if t.bad = [] && t.soft = [] then t
  else { t with bad := t.bad.filter (fun w => !ws.contains w), soft := t.soft.filter (fun w => !ws.contains w) }

end Sys2Proof.Machine
end

