-- ==== Sys2Proof/Machine/Func.lean ====
section
/-! DEFINITION. Quotients, roots and the special functions of 14 R279, as exact values to be rounded once: each
result holds more places than any rounding reads, and st where the exact value lies above them (DEDUCED, log entry 10). -/
namespace Sys2Proof.Machine

/-- Fractional bits of the fixed-point values below. -/
def fxW : Nat := 320
/-- The floor of ln 2 times 2^fxW. -/
def fxLn2 : Int := 0xb17217f7d1cf79abc9e3b39803f2f6af40f343267298b62d8a0d175b8baafa2be7b876206debac98
/-- The floor of pi times 2^640. -/
def fxPi : Int := 0x3243f6a8885a308d313198a2e03707344a4093822299f31d0082efa98ec4e6c89452821e638d01377be5466cf34e90c6cc0ac29b7c97c50dd3f84d5b5b54709179216d5d98979fb1bd1310ba698dfb5ac

/-- The integer square root by bits, the highest first. -/
def isqrtGo (n : Nat) : Nat → Nat → Nat
  | 0, r => r
  | k + 1, r => let c := r + 2 ^ k; isqrtGo n k (if c * c ≤ n then c else r)
def isqrt (n : Nat) : Nat := isqrtGo n (Nat.log2 n / 2 + 1) 0

/-- The exact quotient of two finite nonzero magnitudes. -/
def divMag (neg : Bool) (m1 : Nat) (e1 : Int) (m2 : Nat) (e2 : Int) : Num :=
  let k := Nat.log2 m2 + 80
  let n := m1 * 2 ^ k
  .fin neg (n / m2) (e1 - e2 - k) (n % m2 != 0)

/-- a / b, FDIV (R279, R230, R235). -/
def divNum (a b : Num) : Num × Flags :=
  match firstNan [a, b] with
  | some n => (n.quiet, anySig [a, b])
  | none =>
    match a, b with
    | .inf _, .inf _ => (.dnan, fNV)
    | .inf x, y => (.inf (x != y.neg), fNone)
    | .fin x _ _ _, .inf y => (.zero (x != y), fNone)
    | .fin x m1 e1 _, .fin y m2 e2 _ =>
      if m2 = 0 then (if m1 = 0 then (.dnan, fNV) else (.inf (x != y), fDZ))
      else if m1 = 0 then (.zero (x != y), fNone)
      else (divMag (x != y) m1 e1 m2 e2, fNone)
    | x, _ => (x, fNone)

/-- FRCP (R279). -/
def rcpNum (a : Num) : Num × Flags := divNum (.fin false 1 0 false) a

/-- The root of a positive finite magnitude with 2 k more places. -/
def sqrtMag (m : Nat) (e : Int) : Num :=
  let m := if e % 2 = 0 then m else m * 2
  let e := if e % 2 = 0 then e else e - 1
  let n := m * 2 ^ 200
  let r := isqrt n
  .fin false r (e / 2 - 100) (r * r != n)

/-- FSQRT (R279). -/
def sqrtNum (a : Num) : Num × Flags :=
  match a with
  | .nan _ _ _ => (a.quiet, anySig [a])
  | .inf neg => if neg then (.dnan, fNV) else (a, fNone)
  | .fin neg m e _ =>
    if m = 0 then (a, fNone) else if neg then (.dnan, fNV) else (sqrtMag m e, fNone)

/-- FRSQ (R279): the root of the reciprocal, 1 / m taken to 400 places. -/
def rsqNum (a : Num) : Num × Flags :=
  match a with
  | .nan _ _ _ => (a.quiet, anySig [a])
  | .inf neg => if neg then (.dnan, fNV) else (.zero false, fNone)
  | .fin neg m e _ =>
    if m = 0 then (.inf neg, fDZ) else if neg then (.dnan, fNV)
    else
      let m := if e % 2 = 0 then m else m * 2
      let e := if e % 2 = 0 then e else e - 1
      let q := 2 ^ (2 * (200 + Nat.log2 m)) / m
      let r := isqrt q
      (.fin false r (-(e / 2) - (200 + Nat.log2 m : Nat)) (r * r * m != 2 ^ (2 * (200 + Nat.log2 m))), fNone)

/-! Fixed-point series with fxW fractional bits. -/

/-- The product of two fixed-point values. -/
def fxMul (a b : Int) : Int := a * b / 2 ^ fxW
def fxOne : Int := 2 ^ fxW

/-- 1 + r/1 (1 + r/2 (1 + ...)), n terms from k. -/
def expSeries (r : Int) : Nat → Nat → Int
  | 0, _ => fxOne
  | n + 1, k => fxOne + fxMul r (expSeries r n (k + 1)) / (k : Int)
/-- e^r for a fixed-point r of magnitude at most 1. -/
def fxExp (r : Int) : Int := expSeries r 90 1

/-- 1 - r2/(k (k+1)) (1 - ...), n terms: the series of sine (k = 2) and cosine (k = 1). -/
def trigSeries (r2 : Int) : Nat → Nat → Int
  | 0, _ => fxOne
  | n + 1, k => fxOne - fxMul r2 (trigSeries r2 n (k + 2)) / (k * (k + 1) : Int)

/-- 1/k + z2 (1/(k+2) + ...), n terms. -/
def atanhSeries (z2 : Int) : Nat → Nat → Int
  | 0, _ => 0
  | n + 1, k => fxOne / (k : Int) + fxMul z2 (atanhSeries z2 n (k + 2))
/-- The logarithm to base e of a fixed-point x between 1/2 and 2. -/
def fxLn (x : Int) : Int :=
  let z := (x - fxOne) * 2 ^ fxW / (x + fxOne)
  2 * fxMul z (atanhSeries (fxMul z z) 110 1)

/-- A fixed-point lower bound as an exact value with st. -/
def fxNum (neg : Bool) (lo : Int) (e : Int) : Num := .fin neg lo.toNat (e - fxW) true

/-- A finite magnitude in fixed point, its lower places dropped. -/
def toFx (m : Nat) (e : Int) : Int := m * 2 ^ (e + fxW).toNat / 2 ^ (-(e + fxW)).toNat

/-- A guard amount below which the errors of the series stay. -/
def fxEps : Int := 2 ^ 24

/-- 2^x for a finite nonzero x. -/
def exp2Fin (neg : Bool) (m : Nat) (e : Int) : Num :=
  if 12 ≤ (Nat.log2 m : Int) + e then (if neg then .fin false 1 (-5000) true else .fin false 1 5000 false)
  else
    let x := m * 2 ^ e.toNat
    let k := (-e).toNat
    let num : Int := if neg then -(x : Int) else x
    let n := num / 2 ^ k
    let f := num % 2 ^ k
    if f = 0 then .fin false 1 n false
    else
      let fx := f * 2 ^ fxW / 2 ^ k
      fxNum false (fxExp (fxMul fx fxLn2) - fxEps) n

/-- FEXP2 (R279). -/
def exp2Num (a : Num) : Num × Flags :=
  match a with
  | .nan _ _ _ => (a.quiet, anySig [a])
  | .inf neg => if neg then (.zero false, fNone) else (a, fNone)
  | .fin neg m e _ => if m = 0 then (.fin false 1 0 false, fNone) else (exp2Fin neg m e, fNone)

/-- log2 of a positive finite magnitude, as an exact value. -/
def log2Fin (m : Nat) (e : Int) : Num :=
  let l := Nat.log2 m
  if m = 2 ^ l then Num.ofInt (l + e)
  else
    let n : Int := l + e
    let fx : Int := m * 2 ^ fxW / 2 ^ l
    -- the significand in [1, 2): above 3/2 it is halved, so that a logarithm near zero keeps its places
    let up := 3 * fxOne < 2 * fx
    let v := fxLn (if up then fx / 2 else fx) * 2 ^ fxW / fxLn2 + (if up then n + 1 else n) * fxOne
    if 0 ≤ v then fxNum false (v - fxEps) 0 else fxNum true (-v - fxEps) 0

/-- FLOG2 (R279). -/
def log2Num (a : Num) : Num × Flags :=
  match a with
  | .nan _ _ _ => (a.quiet, anySig [a])
  | .inf neg => if neg then (.dnan, fNV) else (a, fNone)
  | .fin neg m e _ =>
    if m = 0 then (.inf true, fDZ) else if neg then (.dnan, fNV)
    else let r := log2Fin m e; (if r.isZero then .zero false else r, fNone)

/-- An amount just below a finite magnitude. -/
def below (neg : Bool) (m : Nat) (e : Int) : Num := .fin neg (m * 2 ^ 300 - 1) (e - 300) true

/-- The quadrant and the remainder of a finite magnitude modulo pi / 2, the remainder in fixed point and at most
pi / 4 in magnitude. -/
def reduceTrig (m : Nat) (e : Int) : Int × Int :=
  let x : Int := m * 2 ^ (e + 640).toNat / 2 ^ (-(e + 640)).toNat
  let h := fxPi / 2
  -- the quadrant from 2 x / pi with 640 places, then the remainder against pi held with the same places
  let q := (2 * x + h) / (2 * h)
  (q, (x - q * fxPi / 2) / 2 ^ (640 - fxW))

/-- The sine (quadrant 0) of quadrant q and remainder r, signed, in fixed point. -/
def trigAt (q r : Int) : Int :=
  let r2 := fxMul r r
  let s := fxMul r (trigSeries r2 45 2)
  let c := trigSeries r2 45 1
  match (q % 4).toNat with
  | 0 => s
  | 1 => c
  | 2 => -s
  | _ => -c

/-- A signed fixed-point value as an exact value just below it in magnitude. -/
def fxSigned (neg : Bool) (v : Int) : Num :=
  if 0 ≤ v then fxNum neg (v - fxEps) 0 else fxNum (!neg) (-v - fxEps) 0

/-- FSIN (R279), radians. -/
def sinNum (a : Num) : Num × Flags :=
  match a with
  | .nan _ _ _ => (a.quiet, anySig [a])
  | .inf _ => (.dnan, fNV)
  | .fin neg m e _ =>
    if m = 0 then (a, fNone)
    else if (Nat.log2 m : Int) + e < -40 then (below neg m e, fNone)
    else let t := reduceTrig m e; (fxSigned neg (trigAt t.1 t.2), fNone)

/-- FCOS (R279), radians. -/
def cosNum (a : Num) : Num × Flags :=
  match a with
  | .nan _ _ _ => (a.quiet, anySig [a])
  | .inf _ => (.dnan, fNV)
  | .fin _ m e _ =>
    if m = 0 then (.fin false 1 0 false, fNone)
    else if (Nat.log2 m : Int) + e < -40 then (below false 1 0, fNone)
    else let t := reduceTrig m e; (fxSigned false (trigAt (t.1 + 1) t.2), fNone)

/-- e^(-x) for a finite magnitude x below 2^8, as a fixed-point value with the binary exponent n: the value is
the first times 2^n. -/
def expNeg (m : Nat) (e : Int) : Int × Int :=
  let x := -(toFx m e)
  let n := (2 * x + fxLn2) / (2 * fxLn2)
  (fxExp (x - n * fxLn2), n)

/-- FTANH (R279). -/
def tanhNum (a : Num) : Num × Flags :=
  match a with
  | .nan _ _ _ => (a.quiet, anySig [a])
  | .inf neg => (.fin neg 1 0 false, fNone)
  | .fin neg m e _ =>
    if m = 0 then (a, fNone)
    else if (Nat.log2 m : Int) + e < -40 then (below neg m e, fNone)
    else if 7 ≤ (Nat.log2 m : Int) + e then (below neg 1 0, fNone)
    else
      let u := expNeg m (e + 1)
      let v := u.1 / 2 ^ (-u.2).toNat
      (fxNum neg ((fxOne - v) * 2 ^ fxW / (fxOne + v) - fxEps) 0, fNone)

/-- FSIGM (R279): 1 / (1 + e^(-a)). -/
def sigmNum (a : Num) : Num × Flags :=
  match a with
  | .nan _ _ _ => (a.quiet, anySig [a])
  | .inf neg => (if neg then .zero false else .fin false 1 0 false, fNone)
  | .fin neg m e _ =>
    if m = 0 then (.fin false 1 (-1) false, fNone)
    else if 8 ≤ (Nat.log2 m : Int) + e then (if neg then .fin false 1 (-400) true else below false 1 0, fNone)
    else
      let u := expNeg m e
      let v := u.1 / 2 ^ (-u.2).toNat
      -- 1 / (1 + v) above zero, v / (1 + v) below it, the latter with the places of v
      if neg then (.fin false ((u.1 * 2 ^ fxW / (fxOne + v)) - fxEps).toNat (u.2 - fxW) true, fNone)
      else (fxNum false (fxOne * 2 ^ fxW / (fxOne + v) - fxEps) 0, fNone)

end Sys2Proof.Machine
end

