-- ==== Sys2Proof/Machine/Vector.lean ====
section
/-! DEFINITION. Issuing the V operations on vector rows (14_vector_instructions.md R253-R278). -/
namespace Sys2Proof.Machine

/-! ### Shared operations -/

/-- Codes a vector operation under ANY accepts (R255). -/
def Fmt.isAny (f : Fmt) : Bool := !Fmt.isBp f
/-- The bits of an element that hold its value: 6 in the 6-bit formats (11 R196). -/
def elemBits : Fmt → Nat
  | .e3m2 | .e2m3 => 6
  | f => fmtWidth f
/-- The bits of an element as it is read or written whole: without the ignored bits of a 6-bit element (11 R196; DEDUCED
against 14 R262, log entry 50), and Q1.15's 0x8000 as -32,767 (12 R220). -/
def canonElem (f : Fmt) (x : Nat) : Nat :=
  let y := x % 2 ^ elemBits f
  if f == .q15 && y = 0x8000 then 0x8001 else y
/-- Element e of a row. -/
def elemAt (f : Fmt) (v : Row) (e : Nat) : Nat := canonElem f (rowElem v (fmtWidth f) e)
/-- Fields of width w from a list, the first lowest. -/
def packList (w : Nat) (xs : List Nat) : Nat := xs.foldr (fun x acc => x % 2 ^ w + 2 ^ w * acc) 0
/-- A row of elements of a format, from element lo on; the others zero. -/
def rowFrom (f : Fmt) (lo : Nat) (xs : List Nat) : Row :=
  BitVec.ofNat 2048 (packList (fmtWidth f) xs * 2 ^ (fmtWidth f * lo))

/-- The rounding mode of an operation that takes stochastic rounding (12 R225). -/
def Tile.rmAny (t : Tile) (rm : Rm) : Rm :=
  match rm with
  | .dyn => (match rmOf t.regs.rmode.toNat with | some .dyn => .rne | some m => m | none => .rne)
  | m => m
/-- The rounding mode of another operation: code 5 met through DYN rounds RNE (12 R225, R256). -/
def Tile.rmDet (t : Tile) (rm : Rm) : Rm := match t.rmAny rm with | .sr => .rne | m => m

/-- Effects on a destination view and FLAGS after a latency (R253). -/
def Tile.vPush (t : Tile) (e : Env) (lat : Nat) (dst : View) (r : Row × Flags) : Tile :=
  t.pushAll e (e.now + lat) (viewWrite dst allLanes r.1 ++ [.flags r.2])

/-- One element of a result from its index and the elements of A, B and the destination. -/
abbrev EFn := Nat → Nat → Nat → Nat → Nat × Flags

/-- The elements that the destination view writes, and the flags of all of them (R254, R261). -/
def elemRow (fmt : Fmt) (lanes : Nat) (g : EFn) (a b d : Row) : Row × Flags :=
  let rs := (List.range (lanes * perCell fmt)).map (fun e => g e (elemAt fmt a e) (elemAt fmt b e) (elemAt fmt d e))
  (rowFrom fmt 0 (rs.map (·.1)), rs.foldl (fun f r => f ||| r.2) fNone)

/-- The lowest RESCOMBO reason of those that hold (03 R75). -/
def comboOf (cs : List (Bool × Nat)) : Option Nat := lowest cs
/-- Takes the trap of a RESCOMBO reason, or goes on. -/
def orCombo (e : Env) (c : Option Nat) (t : Except Trap Tile) : Except Trap Tile :=
  match c with
  | some r => .error (rescombo r e.slot)
  | none => t

/-- An elementwise operation (R261, R262). -/
def vElem (lat : Nat) (fmt : Fmt) (ok : Bool) (dst a b : View) (g : Tile → EFn) : Issue := onTile fun e t =>
  orCombo e (comboOf [(!ok, 0)])
    (.ok (t.vPush e lat dst (elemRow fmt (viewLanes dst) (g t) (t.view a) (t.view b) (t.view dst))))

/-- The float format of an element of FL. -/
def flOf (f : Fmt) : FloatFmt := (floatOf f).getD fp32
def Fmt.isFlIn (f : Fmt) : Bool := Fmt.isFl f || Fmt.isIn f
/-- Width and signedness of an element of IN. -/
def inOf (f : Fmt) : Nat × Bool := (intOf f).getD (32, true)
def inVal (f : Fmt) (x : Nat) : Int := intVal (inOf f).1 (inOf f).2 x
/-- wrapsat (R256, R261). -/
def wrapsat (f : Fmt) (sat : Bool) (x : Int) : Nat × Flags := intToInt (inOf f).1 (inOf f).2 sat x

/-- A float result rounded into its own format, or an integer one wrapped or clamped. -/
def arith2 (f : VArith) (fl : Bool → Num → Num → Num × Flags) (int : Int → Int → Int) (t : Tile) : EFn :=
  fun _ a b _ =>
    if Fmt.isFl f.fmt then
      let m := t.rmDet f.rm
      let r := fl (m == .rd) (elemValue f.fmt a) (elemValue f.fmt b)
      let q := roundFmt (flOf f.fmt) m f.sat 0 r.1
      (q.1, r.2 ||| q.2)
    else wrapsat f.fmt f.sat (int (inVal f.fmt a) (inVal f.fmt b))
def vArith (lat : Nat) (f : VArith) (ok : Bool) (g : Tile → EFn) : Issue :=
  vElem lat f.fmt (ok && f.rm != .sr) f.dst f.a f.b g

/-! ### Elementwise operations (R260-R263) -/

/-- a - b, a NaN keeping its own sign. -/
def vsubNum (rd : Bool) (x y : Num) : Num × Flags := addNum rd x (if y.isNan then y else y.negate)
def issueVadd (f : VArith) : Issue := vArith 2 f (Fmt.isFlIn f.fmt) (arith2 f addNum (· + ·))
def issueVsub (f : VArith) : Issue := vArith 2 f (Fmt.isFlIn f.fmt) (arith2 f vsubNum (· - ·))
def issueVmul (f : VArith) : Issue := vArith 4 f (Fmt.isFlIn f.fmt) (arith2 f (fun _ => mulNum) (· * ·))
def issueVfma (f : VArith) : Issue := vArith 4 f (Fmt.isFl f.fmt) (fun t _ a b d =>
  let m := t.rmDet f.rm
  let r := fmaNum (m == .rd) (elemValue f.fmt a) (elemValue f.fmt b) (elemValue f.fmt d)
  let q := roundFmt (flOf f.fmt) m f.sat 0 r.1
  (q.1, r.2 ||| q.2))

/-- Less, with -0 below +0 (R261). -/
def ltZero (x y : Num) : Bool := ltNum x y || (x.isZero && y.isZero && x.neg && !y.neg)
/-- The lesser or greater of two numbers, the first NaN where there is one (R261). -/
def pickNum (max : Bool) (x y : Num) : Num × Flags :=
  match firstNan [x, y] with
  | some n => (n.quiet, anySig [x, y])
  | none => (if (if max then ltZero x y else ltZero y x) then y else x, fNone)
def minMax (max : Bool) (f : VBin) : EFn := fun _ a b _ =>
  if Fmt.isFl f.fmt then
    let r := pickNum max (elemValue f.fmt a) (elemValue f.fmt b)
    ((roundFmt (flOf f.fmt) .rne false 0 r.1).1, r.2)
  else
    let x := inVal f.fmt a
    let y := inVal f.fmt b
    (if (if max then x < y else y < x) then b else a, fNone)
def issueVmin (f : VBin) : Issue := vElem 2 f.fmt (Fmt.isFlIn f.fmt) f.dst f.a f.b (fun _ => minMax false f)
def issueVmax (f : VBin) : Issue := vElem 2 f.fmt (Fmt.isFlIn f.fmt) f.dst f.a f.b (fun _ => minMax true f)

/-- Formats of VABS and VNEG. -/
def Fmt.isSignOp (f : Fmt) : Bool := Fmt.isFl f || f == .i8 || f == .i16 || f == .i32
def signBit (f : Fmt) : Nat := 2 ^ (fmtWidth f - 1)
def issueVabs (f : VUn) : Issue := vElem 2 f.fmt (Fmt.isSignOp f.fmt) f.dst f.a f.a (fun _ _ a _ _ =>
  if Fmt.isFl f.fmt then (a % signBit f.fmt, fNone) else wrapsat f.fmt f.sat (inVal f.fmt a).natAbs)
def issueVneg (f : VUn) : Issue := vElem 2 f.fmt (Fmt.isSignOp f.fmt) f.dst f.a f.a (fun _ _ a _ _ =>
  if Fmt.isFl f.fmt then (if a < signBit f.fmt then a + signBit f.fmt else a - signBit f.fmt, fNone)
  else wrapsat f.fmt f.sat (-(inVal f.fmt a)))

def bitwise (g : Nat → Nat → Nat) : EFn := fun _ a b _ => (g a b, fNone)
def issueVand (f : VBin) : Issue := vElem 2 f.fmt (f.fmt == .i32) f.dst f.a f.b (fun _ => bitwise (· &&& ·))
def issueVor (f : VBin) : Issue := vElem 2 f.fmt (f.fmt == .i32) f.dst f.a f.b (fun _ => bitwise (· ||| ·))
def issueVxor (f : VBin) : Issue := vElem 2 f.fmt (f.fmt == .i32) f.dst f.a f.b (fun _ => bitwise (· ^^^ ·))
def issueVshl (f : VBin) : Issue := vElem 2 f.fmt (Fmt.isIn f.fmt) f.dst f.a f.b (fun _ =>
  bitwise (fun a c => if c < fmtWidth f.fmt then a * 2 ^ c % 2 ^ fmtWidth f.fmt else 0))
def issueVshr (f : VBin) : Issue := vElem 2 f.fmt (Fmt.isIn f.fmt) f.dst f.a f.b (fun _ =>
  bitwise (fun a c => if c < fmtWidth f.fmt then a / 2 ^ c else 0))
def issueVsar (f : VBin) : Issue := vElem 2 f.fmt (Fmt.isIn f.fmt) f.dst f.a f.b (fun _ =>
  bitwise (fun a c => lowBits (fmtWidth f.fmt) (intVal (fmtWidth f.fmt) true a / 2 ^ Nat.min c (fmtWidth f.fmt))))
/-- The mask is the destination element at issue (R262). -/
def issueVsel (f : VBin) : Issue := vElem 2 f.fmt (Fmt.isAny f.fmt) f.dst f.a f.b (fun _ _ a b d =>
  (if d = 0 then b else a, fNone))

/-- All ones of an element. -/
def onesOf (f : Fmt) (b : Bool) : Nat := if b then 2 ^ fmtWidth f - 1 else 0
/-- A compare: false on a NaN, with NV for any NaN, or for a signalling one only (R262). -/
def vCompare (f : VBin) (quiet : Bool) (fl : Num → Num → Bool) (int : Int → Int → Bool) : EFn := fun _ a b _ =>
  if Fmt.isFl f.fmt then
    let x := elemValue f.fmt a
    let y := elemValue f.fmt b
    let nan := x.isNan || y.isNan
    (onesOf f.fmt (!nan && fl x y), if quiet then anySig [x, y] else fIf nan fNV)
  else (onesOf f.fmt (int (inVal f.fmt a) (inVal f.fmt b)), fNone)
def issueVcmpeq (f : VBin) : Issue :=
  vElem 2 f.fmt (Fmt.isFlIn f.fmt) f.dst f.a f.b (fun _ => vCompare f true eqNum (fun x y => x == y))
def issueVcmplt (f : VBin) : Issue :=
  vElem 2 f.fmt (Fmt.isFlIn f.fmt) f.dst f.a f.b (fun _ => vCompare f false ltNum (fun x y => x < y))
def issueVcmple (f : VBin) : Issue :=
  vElem 2 f.fmt (Fmt.isFlIn f.fmt) f.dst f.a f.b (fun _ => vCompare f false (fun x y => !ltNum y x) (fun x y => x ≤ y))

def issueVmov (fmt : Fmt) (dst a : View) : Issue := vElem 2 fmt (fmt == .f32) dst a a (fun _ _ a _ _ => (a, fNone))
def issueVbcs (fmt : Fmt) (dst : View) (a : BitVec 6) : Issue := vElem 2 fmt (Fmt.isAny fmt) dst dst dst (fun t =>
  let x := canonElem fmt (t.rs a).toNat
  fun _ _ _ _ => (x, fNone))
def issueViota (fmt : Fmt) (dst : View) (a b : BitVec 6) : Issue := vElem 2 fmt (Fmt.isIn fmt) dst dst dst (fun t =>
  let x := (t.rs a).toNat
  let y := (t.rs b).toNat
  fun e _ _ _ => ((x + e * y) % 2 ^ fmtWidth fmt, fNone))
def issueVmulh (f : VBin) : Issue := vElem 4 f.fmt (Fmt.isIn f.fmt) f.dst f.a f.b (fun _ =>
  bitwise (fun a b => lowBits (fmtWidth f.fmt) (inVal f.fmt a * inVal f.fmt b / 2 ^ fmtWidth f.fmt)))

/-- Formats of VMADW. -/
def Fmt.isMadw (f : Fmt) : Bool := f == .i8 || f == .u8 || f == .i4 || f == .u4 || f == .i16
/-- VMADW: products of a cell added into its 32-bit destination (R263). -/
def issueVmadw (fmt : Fmt) (sat : Bool) (sel : BitVec 3) (dst a b : View) : Issue := onTile fun e t =>
  let n := perCell fmt
  orCombo e (comboOf [(!Fmt.isMadw fmt, 0), (Fmt.isMadw fmt && sel != 7 && n ≤ sel.toNat, 3)])
    (let va := t.view a
     let vb := t.view b
     let vd := t.view dst
     let prod (j k : Nat) : Int := inVal fmt (elemAt fmt va (n * j + k)) * inVal fmt (elemAt fmt vb (n * j + k))
     let rs := (List.range (viewLanes dst)).map (fun j =>
       let p := if sel = 7 then (List.range n).foldl (fun s k => s + prod j k) 0 else prod j sel.toNat
       intToInt 32 true sat (intVal 32 true (rowCell vd j) + p))
     .ok (t.vPush e 4 dst (rowFrom .i32 0 (rs.map (·.1)), rs.foldl (fun f r => f ||| r.2) fNone)))

/-! ### Random numbers (R268-R271) -/

def mul32 (a b : Nat) : Nat × Nat := (a * b / 2 ^ 32, a * b % 2 ^ 32)
/-- The ten rounds of the generator on (x0, x1, x2, x3) with the key words c0 and c1. -/
def philoxRounds : Nat → Nat × Nat × Nat × Nat → Nat → Nat → List Nat
  | 0, (x0, x1, x2, x3), _, _ => [x0, x1, x2, x3]
  | n + 1, (x0, x1, x2, x3), c0, c1 =>
    let p0 := mul32 0xD2511F53 x0
    let p1 := mul32 0xCD9E8D57 x2
    philoxRounds n (p1.1 ^^^ x1 ^^^ c0, p1.2, p0.1 ^^^ x3 ^^^ c1, p0.2)
      ((c0 + 0x9E3779B9) % 2 ^ 32) ((c1 + 0xBB67AE85) % 2 ^ 32)
/-- STREAM and BLOCK of RNGCTR (R268). -/
def rngStream (c : BitVec 64) : Nat := c.toNat / 2 ^ 44
def rngBlock (c : BitVec 64) : Nat := c.toNat / 4 % 2 ^ 42
/-- Block q of the draw sequence (R269). -/
def philox (r : Regs) (q : Nat) : List Nat :=
  let b := (rngBlock r.rngCtr + q) % 2 ^ 42
  philoxRounds 10 (b % 2 ^ 32, b / 2 ^ 32, rngStream r.rngCtr, 0) r.rngKey0.toNat r.rngKey1.toNat
/-- Blocks that operations of the same bundle have taken (R271). -/
def blocksTaken (t : Tile) : Nat := t.pend.foldl (fun n p => match p.act with | .rng k => n + k | _ => n) 0
/-- The first n words of an operation's draw sequence. -/
def Tile.draws (t : Tile) (n : Nat) : List Nat :=
  ((List.range ((n + 3) / 4)).flatMap (fun q => philox t.regs (blocksTaken t + q))).take n
/-- BLOCK advanced (R271). -/
def Regs.advance (r : Regs) (n : Nat) : Regs :=
  { r with rngCtr := BitVec.ofNat 64 (rngStream r.rngCtr * 2 ^ 44 + (rngBlock r.rngCtr + n) % 2 ^ 42 * 4) }

def issueVrng (fmt : Fmt) (dst : View) : Issue := onTile fun e t =>
  orCombo e (comboOf [(!(fmt == .u32 || fmt == .f32), 0)])
    (let ws := (t.draws 64).map (fun w =>
       if fmt == .u32 then w else (roundFmt fp32 .rne false 0 (.fin false (w / 256) (-24) false)).1)
     .ok ((t.pushAll e (e.now + 6) (viewWrite dst allLanes (rowFrom .u32 0 ws))).push e (e.now + 1) (.rng 16)))

/-! ### Conversions (R264-R267) -/

/-- Elements a conversion moves, and how many parts its wider side has (R264, R265). -/
def cvtElems (sf df : Fmt) : Nat := 2048 / Nat.max (fmtWidth sf) (fmtWidth df)
def cvtParts (sf df : Fmt) : Nat :=
  Nat.max (fmtWidth sf) (fmtWidth df) / Nat.min (fmtWidth sf) (fmtWidth df)
/-- The cells that a conversion of a part writes (R265). -/
def cvtMask (sf df : Fmt) (p : Nat) : BitVec 64 :=
  if fmtWidth sf ≤ fmtWidth df then allLanes
  else
    let n := 64 / cvtParts sf df
    maskOf (fun c => p * n ≤ c && c < (p + 1) * n)
/-- The sources of the elements. -/
def cvtSrc (sf df : Fmt) (p : Nat) (v : Row) : List Nat :=
  let n := cvtElems sf df
  (List.range n).map (fun e => elemAt sf v (if fmtWidth sf < fmtWidth df then p * n + e else e))
/-- The row that the results make. -/
def cvtRow (sf df : Fmt) (p : Nat) (ys : List Nat) : Row :=
  rowFrom df (if fmtWidth df < fmtWidth sf then p * cvtElems sf df else 0) ys
/-- Draws of a stochastic conversion, zero otherwise, and the advance they cause (R271). -/
def cvtDraws (t : Tile) (rm : Rm) (n : Nat) : List Nat := if rm = .sr then t.draws n else List.replicate n 0
def cvtAdvance (e : Env) (rm : Rm) (n : Nat) (t : Tile) : Tile :=
  if rm = .sr then t.push e (e.now + 1) (.rng (16 * ((n + 63) / 64))) else t

def issueVcvt (f : VCvt) : Issue := onTile fun e t =>
  let ok := Fmt.isAny f.fmt && Fmt.isAny f.sfmt && f.fmt != f.sfmt
  orCombo e (comboOf [(!ok, 0), (!viewIsRow f.dst || !(viewIsRow f.a || viewIsSpec f.a), 3),
      (ok && cvtParts f.sfmt f.fmt ≤ f.part.toNat, 3)])
    (let m := t.rmAny f.rm
     let n := cvtElems f.sfmt f.fmt
     let ys := ((cvtSrc f.sfmt f.fmt f.part.toNat (t.view f.a)).zip (cvtDraws t m n)).map
       (fun p => convert f.sfmt f.fmt m f.sat p.2 p.1)
     let fl := ys.foldl (fun fl y => fl ||| y.2) fNone
     .ok (cvtAdvance e m n (t.pushAll e (e.now + 3)
       [.cells (viewRowNo f.dst) (cvtMask f.sfmt f.fmt f.part.toNat)
          (cvtRow f.sfmt f.fmt f.part.toNat (ys.map (·.1))), .flags fl])))

/-- The residual of R237 and its own flags: x in FP32, y in its format, with the flags of the conversion
(DEDUCED, log entry 19). -/
def residual (f : FloatFmt) (xbits y : Nat) (fl : Flags) : Nat × Flags :=
  let x := elemValue .f32 xbits
  let v := f.value y
  let diff := (roundFmt fp32 .rne false 0 (vsubNum false x v).1).1
  match x with
  | .nan _ _ _ => ((roundFmt fp32 .rne false 0 x.quiet).1, fNone)
  | .inf _ => (if v.isInf then 0 else xbits, fNone)
  | .fin _ _ _ _ =>
    if fl &&& fOF == 0 then (diff, fNone)
    else if v.isInf || v.isNan then (xbits, fSAT) else (diff, fSAT)

def issueVcvtef (f : VCvt) : Issue := onTile fun e t =>
  let ok := f.sfmt == .f32 && f.fmt != .f32 && (floatOf f.fmt).isSome
  orCombo e (comboOf [(!ok, 0), (!viewIsRow f.dst || !viewIsRow f.a, 3), (f.a == f.dst, 3),
      (ok && cvtParts f.sfmt f.fmt ≤ f.part.toNat, 3)])
    (let m := t.rmAny f.rm
     let n := cvtElems f.sfmt f.fmt
     let rs := ((cvtSrc f.sfmt f.fmt f.part.toNat (t.view f.a)).zip (cvtDraws t m n)).map (fun p =>
       let y := convert .f32 f.fmt m f.sat p.2 p.1
       let z := residual (flOf f.fmt) p.1 y.1 y.2
       (y.1, z.1, y.2 ||| z.2))
     let fl := rs.foldl (fun fl r => fl ||| r.2.2) fNone
     .ok (cvtAdvance e m n (t.pushAll e (e.now + 3)
       [.cells (viewRowNo f.dst) (cvtMask f.sfmt f.fmt f.part.toNat)
          (cvtRow f.sfmt f.fmt f.part.toNat (rs.map (·.1))),
        .cells (viewRowNo f.a) allLanes (rowFrom .f32 0 (rs.map (·.2.1))), .flags fl])))

def issueVsacc (fmt : Fmt) (rm : Rm) (sat uni : Bool) (dst a b : View) : Issue := onTile fun e t =>
  orCombo e (comboOf [(fmt != .f32 || rm == .sr, 0), (!(viewIsRow b || viewIsSpec b), 3)])
    (let m := t.rmDet rm
     let vb := t.view b
     .ok (t.vPush e 4 dst (elemRow .f32 (viewLanes dst) (fun j a _ d =>
       let s := part 8 vb.toNat (if uni then 0 else j)
       if s = 255 then (0x7FC00000, fNV)
       else
         let r := addNum (m == .rd) (elemValue .f32 d) ((elemValue .f32 a).scale ((s : Int) - 127))
         let q := roundFmt fp32 m sat 0 r.1
         (q.1, r.2 ||| q.2)) (t.view a) (t.view a) (t.view dst))))

/-! ### Panel-axis operations (R272-R275) -/

def Tile.amount (t : Tile) : Amt → Nat
  | .imm n => n.toNat
  | .reg s => (t.rs s).toNat
def amtAbove (n : Nat) : Amt → Bool
  | .imm k => n < k.toNat
  | .reg _ => false

/-- The elements of a row of a format. -/
def elemsOf (f : Fmt) (v : Row) : List Nat := (List.range (perRow f)).map (elemAt f v)

/-- A row-axis operation: the elements that an index function picks (R273). -/
def rowAxis (f : VShift) (pick : Nat → Nat → Nat) : Issue := onTile fun e t =>
  orCombo e (comboOf [(!Fmt.isAny f.fmt, 0), (!viewIsRow f.dst || !viewIsRow f.a, 3)])
    (let k := t.amount f.amt
     let v := t.view f.a
     .ok (t.pushAll e (e.now + 6) (viewWrite f.dst allLanes
       (rowFrom f.fmt 0 ((List.range (perRow f.fmt)).map (fun i => elemAt f.fmt v (pick k i)))))))
def issueVrotr (f : VShift) : Issue := rowAxis f (fun k e => (e + k) % perRow f.fmt)
def issueVbcr (f : VShift) : Issue := rowAxis f (fun k _ => k % perRow f.fmt)
def issueVshfr (f : VShift) : Issue := onTile fun e t =>
  let n := perRow f.fmt
  let r := viewRowNo f.a
  orCombo e (comboOf [(!Fmt.isAny f.fmt, 0),
      (!viewIsRow f.dst || !viewIsRow f.a || 16 * e.panels ≤ r + 1 || amtAbove n f.amt, 3)])
    (let k := Nat.min (t.amount f.amt) n
     let v := t.vrow r
     let w := t.vrow (r + 1)
     .ok (t.pushAll e (e.now + 6) (viewWrite f.dst allLanes
       (rowFrom f.fmt 0 ((List.range n).map (fun i =>
         if i + k < n then elemAt f.fmt v (i + k) else elemAt f.fmt w (i + k - n)))))))

/-- A column-axis operation: row i of the destination panel is a row that an index function picks, from the panel's
first row on (R274). -/
def colAxis (f : VShift) (panelsRead lim : Nat) (pick : Nat → Nat → Nat) : Issue := onTile fun e t =>
  orCombo e (comboOf [(f.fmt != .f32, 0),
      (!viewIsPanel f.dst || !viewIsPanel f.a || 16 * e.panels < viewRowNo f.a + 16 * panelsRead ||
        amtAbove lim f.amt, 3)])
    (let k := t.amount f.amt
     .ok (t.pushAll e (e.now + 18) ((List.range 16).map (fun i =>
       .cells (viewRowNo f.dst + i) allLanes (t.vrow (viewRowNo f.a + pick k i))))))
def issueVrotc (f : VShift) : Issue := colAxis f 1 127 (fun k i => (i + k) % 16)
def issueVbcc (f : VShift) : Issue := colAxis f 1 127 (fun k _ => k % 16)
def issueVshfc (f : VShift) : Issue := colAxis f 2 16 (fun k i => i + Nat.min k 16)
def issueVtrn (fmt : Fmt) (dst a : View) : Issue := onTile fun e t =>
  orCombo e (comboOf [(fmt != .f32, 0), (!viewIsPanel dst || !viewIsPanel a, 3)])
    (.ok (t.pushAll e (e.now + 18) ((List.range 16).map (fun i =>
      .cells (viewRowNo dst + i) allLanes
        (rowFrom .f32 0 ((List.range 64).map (fun c => rowCell (t.vrow (viewRowNo a + c % 16)) (16 * (c / 16) + i))))))))

/-- One level of the reduction tree. -/
def treeLevel {α : Type} (node : α → α → α × Flags) : List α → List α × Flags
  | x :: y :: r =>
    let z := node x y
    let q := treeLevel node r
    (z.1 :: q.1, z.2 ||| q.2)
  | xs => (xs, fNone)
/-- The reduction tree of R275 over a list of 2^n values. -/
def tree {α : Type} (node : α → α → α × Flags) : Nat → List α → List α × Flags
  | 0, xs => (xs, fNone)
  | n + 1, xs =>
    let l := treeLevel node xs
    let q := tree node n l.1
    (q.1, l.2 ||| q.2)
/-- A node on numbers widened to FP32. -/
def flNode (op : Red) (x y : Num) : Num × Flags :=
  match op with
  | .sum =>
    let r := addNum false x y
    let q := roundFmt fp32 .rne false 0 r.1
    (elemValue .f32 q.1, r.2 ||| q.2)
  | .max => pickNum true x y
  | .min => pickNum false x y
/-- A node on 32-bit integers. -/
def inNode (signed : Bool) (op : Red) (x y : Int) : Int × Flags :=
  match op with
  | .sum => (intVal 32 signed (lowBits 32 (x + y)), fNone)
  | .max => (if x < y then y else x, fNone)
  | .min => (if y < x then y else x, fNone)
/-- The reduction of 2^n elements of a format to a 32-bit cell (R275). -/
def reduce (fmt : Fmt) (op : Red) (n : Nat) (xs : List Nat) : Nat × Flags :=
  if Fmt.isFl fmt then
    let r := tree (flNode op) n (xs.map (elemValue fmt))
    ((roundFmt fp32 .rne false 0 (r.1.headD (.zero false))).1, r.2)
  else
    let r := tree (inNode (inOf fmt).2 op) n (xs.map (inVal fmt))
    (lowBits 32 (r.1.headD 0), r.2)

def issueVredr (f : VRed) : Issue := onTile fun e t =>
  orCombo e (comboOf [(!Fmt.isFlIn f.fmt, 0), (!viewIsRow f.dst || !viewIsRow f.a, 3)])
    (let r := reduce f.fmt f.op (Nat.log2 (perRow f.fmt)) (elemsOf f.fmt (t.view f.a))
     .ok (t.vPush e 6 f.dst (rowFrom .i32 0 [r.1], r.2)))
def issueVredc (f : VRed) : Issue := onTile fun e t =>
  orCombo e (comboOf [(!(f.fmt == .f32 || f.fmt == .i32 || f.fmt == .u32), 0),
      (!viewIsRow f.dst || !viewIsPanel f.a, 3)])
    (let rs := (List.range 64).map (fun c =>
       reduce f.fmt f.op 4 ((List.range 16).map (fun i => rowCell (t.vrow (viewRowNo f.a + i)) c)))
     .ok (t.vPush e 18 f.dst (rowFrom .i32 0 (rs.map (·.1)), rs.foldl (fun fl r => fl ||| r.2) fNone)))

/-! ### Partition, count and argmax (R276-R278) -/

/-- An index row: the list, then null indices. -/
def indexRow (l : List Nat) : Row := rowFrom .i32 0 ((l ++ List.replicate 64 0x80000000).take 64)
def issueVpart (fmt : Fmt) (dst a : View) (b : BitVec 6) : Issue := onTile fun e t =>
  let d := viewRowNo dst
  orCombo e (comboOf [(fmt != .i32, 0), (!viewIsRow dst || !viewIsRow a || 16 * e.panels ≤ d + 1, 3)])
    (let v := t.view a
     let tt := (List.range 64).filter (fun j => rowCell v j != 0)
     let uu := (List.range 64).filter (fun j => rowCell v j == 0)
     .ok (t.pushAll e (e.now + 6) [.cells d allLanes (indexRow tt), .cells (d + 1) allLanes (indexRow uu),
       t.wScalar b (BitVec.ofNat 64 tt.length), t.wScalar (b + 1) (BitVec.ofNat 64 uu.length)]))
def issueVcnt (fmt : Fmt) (d : BitVec 6) (a : View) : Issue := onTile fun e t =>
  orCombo e (comboOf [(!Fmt.isAny fmt, 0), (!viewIsRow a, 3)])
    (.ok (t.push e (e.now + 6) (t.wScalar d
      (BitVec.ofNat 64 ((elemsOf fmt (t.view a)).filter (· != 0)).length))))
/-- The index that VARGM chooses among values in order of index. -/
def argBest (lt : Nat → Nat → Bool) : List (Nat × Nat) → Nat × Nat
  | [] => (0, 0)
  | p :: r => r.foldl (fun best q => if lt best.1 q.1 then q else best) p
def issueVargm (fmt : Fmt) (mn : Bool) (d : BitVec 6) (a : View) : Issue := onTile fun e t =>
  orCombo e (comboOf [(!(fmt == .f32 || fmt == .i32 || fmt == .u32), 0), (!viewIsRow a, 3)])
    (let xs := (List.range 64).map (fun j => (rowCell (t.view a) j, j))
     let less (x y : Nat) : Bool :=
       if fmt == .f32 then ltZero (elemValue .f32 x) (elemValue .f32 y) else inVal fmt x < inVal fmt y
     let nan := if fmt == .f32 then xs.find? (fun p => (elemValue .f32 p.1).isNan) else none
     let r := match nan with
       | some p => (p, fIf (elemValue .f32 p.1).isSNan fNV)
       | none => (argBest (fun x y => if mn then less y x else less x y) xs, fNone)
     .ok (t.pushAll e (e.now + 6) [t.wScalar d (BitVec.ofNat 64 (r.1.1 * 2 ^ 32 + r.1.2)), .flags r.2]))

end Sys2Proof.Machine
end

