-- ==== Sys2Proof/Machine/FuncOps.lean ====
section
/-! DEFINITION. Issuing the F operations: special functions and the scalar divider (14_vector_instructions.md R279,
R280). -/
namespace Sys2Proof.Machine

/-- A function of one operand, rounded once into the element's format (R279). -/
def fFunc (f : FUn) (g : Num → Num × Flags) : Issue :=
  vElem 12 f.fmt (Fmt.isFl f.fmt && f.rm != .sr) f.dst f.a f.a (fun t _ a _ _ =>
    let r := g (elemValue f.fmt a)
    let q := roundFmt (flOf f.fmt) (t.rmDet f.rm) false 0 r.1
    (q.1, r.2 ||| q.2))
def issueFrcp (f : FUn) : Issue := fFunc f rcpNum
def issueFrsq (f : FUn) : Issue := fFunc f rsqNum
def issueFsqrt (f : FUn) : Issue := fFunc f sqrtNum
def issueFexp2 (f : FUn) : Issue := fFunc f exp2Num
def issueFlog2 (f : FUn) : Issue := fFunc f log2Num
def issueFsin (f : FUn) : Issue := fFunc f sinNum
def issueFcos (f : FUn) : Issue := fFunc f cosNum
def issueFtanh (f : FUn) : Issue := fFunc f tanhNum
def issueFsigm (f : FUn) : Issue := fFunc f sigmNum
def issueFdiv (fmt : Fmt) (rm : Rm) (dst a b : View) : Issue :=
  vElem 12 fmt (Fmt.isFl fmt && rm != .sr) dst a b (fun t _ a b _ =>
    let r := divNum (elemValue fmt a) (elemValue fmt b)
    let q := roundFmt (flOf fmt) (t.rmDet rm) false 0 r.1
    (q.1, r.2 ||| q.2))

/-- A division lands at t + 12 and sets no flag (R280). -/
def divRes (f : SDiv) (g : BitVec 64 → BitVec 64 → BitVec 64) : Issue := onTile fun e t =>
  .ok (t.push e (e.now + 12) (t.wScalar f.d (g (t.rs f.a) (t.rs f.b))))
def issueSdiv (f : SDiv) : Issue :=
  divRes f (fun a b => if b = 0 then BitVec.allOnes 64 else BitVec.ofInt 64 (a.toInt.tdiv b.toInt))
def issueSdivu (f : SDiv) : Issue :=
  divRes f (fun a b => if b = 0 then BitVec.allOnes 64 else BitVec.ofNat 64 (a.toNat / b.toNat))
def issueSrem (f : SDiv) : Issue :=
  divRes f (fun a b => if b = 0 then a else BitVec.ofInt 64 (a.toInt.tmod b.toInt))
def issueSremu (f : SDiv) : Issue :=
  divRes f (fun a b => if b = 0 then a else BitVec.ofNat 64 (a.toNat % b.toNat))

end Sys2Proof.Machine
end

