-- ==== Sys2Proof/Machine/Direction.lean ====
section
/-! DEFINITION. Direction registers: groups, renormalisation, and issuing the direction operations
(15_direction_registers.md). -/
namespace Sys2Proof.Machine

/-! ### Groups (R281-R283) -/

/-- What a norm says (R282); mem marks a member code, read as the NaN code (R283). -/
inductive DCode where
  | zero | inf
  | nan (mem : Bool)
  | fin (l : Int)
deriving DecidableEq, Repr

def normInf : Word32 := 0x7FFFFFFE
def normNan : Word32 := 0x7FFFFFFF
def dCode (n : Word32) : DCode :=
  if n = normZero then .zero else if n = normMember then .nan true
  else if n = normInf then .inf else if n = normNan then .nan false else .fin n.toInt
def DCode.isNan : DCode → Bool
  | .nan _ => true
  | _ => false
/-- The flag that reading a group raises (R283). -/
def DCode.memFlag : DCode → Flags
  | .nan true => fNV
  | _ => fNone
/-- The norm that holds a code. -/
def DCode.word : DCode → Word32
  | .zero => normZero
  | .inf => normInf
  | .nan _ => normNan
  | .fin l => BitVec.ofInt 32 l

/-- A component: 0x8000 reads as -32,767 (12 R220). -/
def q15Val (x : Nat) : Int := let c := intVal 16 true x; if c = -32768 then -32767 else c
/-- The components of a group as the file holds them. -/
def Tile.rawComps (t : Tile) (d k : Nat) : List Int :=
  (List.range (128 * k)).map (fun i => q15Val (rowElem (t.comps (d + i / 128)) 16 (i % 128)))
/-- A group operand: its code and its components as read (R283). -/
def Tile.group (t : Tile) (d k : Nat) : DCode × List Int :=
  let c := dCode (t.normOf d)
  (c, if c = .zero then List.replicate (128 * k) 0 else t.rawComps d k)

/-- The row of 128 components from a list. -/
def compRow (xs : List Int) : Row := BitVec.ofNat 2048 (packList 16 (xs.map (lowBits 16)))
/-- The effects that write the components of a group. -/
def writeComps (d k : Nat) (xs : List Int) : List Act :=
  (List.range k).map (fun m => .comps (d + m) (compRow ((xs.drop (128 * m)).take 128)))
/-- The effects that write the norm of a group, member codes behind the first register (R283). -/
def writeNorm (d k : Nat) (n : Word32) : List Act :=
  (List.range k).map (fun m => .norm (d + m) (if m = 0 then n else normMember))

/-! ### Renormalisation (R284-R286) -/

/-- The lower edge of the band. -/
def bandLow : Int := 2 ^ 30 - 2 ^ 21
def sumSq (xs : List Int) : Int := xs.foldl (fun s x => s + x * x) 0

/-- The places of a list in the order of the correction pass: descending value, ties by ascending place. -/
def placeInsert (p : Nat × Nat) : List (Nat × Nat) → List (Nat × Nat)
  | [] => [p]
  | q :: r => if p.1 < q.1 || (p.1 = q.1 && q.2 < p.2) then q :: placeInsert p r else p :: q :: r
def correctionOrder (fs : List Nat) : List (Nat × Nat) := (fs.zip (List.range fs.length)).foldr placeInsert []

/-- The correction pass: magnitudes raised by one until the band is met (R285). -/
def correct (cs : List Nat) (s : Int) : List (Nat × Nat) → List Nat
  | [] => cs
  | (f, i) :: r =>
    if bandLow ≤ s then cs
    else
      let c := (cs[i]?).getD 0
      if 0 < f && c < 32767 then correct (cs.set i (c + 1)) (s + 2 * c + 1) r else correct cs s r

/-- log2 m times 2^16 rounded to nearest, for m of at least 1: floor(2 z) is the bit length of m^(2^17). -/
def log2Q16 (m : Nat) : Int := ((Nat.log2 (m ^ 131072) : Int) + 1) / 2

/-- A norm of R282 from an integer count of 2^-16, saturating (R285, R296). -/
def normSat (l : Int) : Word32 × Flags :=
  if 0x7FFFFFFD < l then (normInf, fOF)
  else if l < -0x7FFFFFFE then (normZero, fUF)
  else (BitVec.ofInt 32 l, fNone)

/-- renorm (R285) of the elements u_i 2^e with a norm of l0 2^-16. -/
def renorm (u : List Int) (e l0 : Int) : List Int × Word32 × Flags :=
  let q := (sumSq u).toNat
  if q = 0 then (u, normZero, fNone)
  else
    let up := 2 ^ (e + 15).toNat
    let dn := 2 ^ (-(e + 15)).toNat
    let cs := u.map (fun x => x * up / dn)
    let exact := u.all (fun x => x * up % dn = 0) && cs.all (fun c => c.natAbs ≤ 32767)
    if exact && bandLow ≤ sumSq cs && sumSq cs ≤ 2 ^ 30 then (cs, BitVec.ofInt 32 l0, fNone)
    else
      let s0 := 23 + Nat.log2 q / 2
      let m0 := isqrt (2 ^ (2 * s0) / q)
      let s := if 2 ^ 23 ≤ m0 then s0 else s0 + 1
      let m := if 2 ^ 23 ≤ m0 then m0 else isqrt (2 ^ (2 * s) / q)
      let mag := u.map (fun x => x.natAbs * m / 2 ^ (s - 15))
      let fr := u.map (fun x => x.natAbs * m % 2 ^ (s - 15))
      let c0 := mag.map (fun c => Nat.min c 32767)
      let sum := sumSq (c0.map Int.ofNat)
      let c1 := if bandLow ≤ sum then c0 else correct c0 sum (correctionOrder fr)
      let n := normSat (l0 + ((s : Int) + e) * 65536 - log2Q16 m)
      ((u.zip c1).map (fun p => if p.1 < 0 then -(p.2 : Int) else p.2), n.1, n.2 ||| fRN)

/-- f(delta) of R286 as a count of 2^-40, delta a count of 2^-16 and at most 0. -/
def alignFactor (delta : Int) : Int :=
  if delta ≤ -(41 * 65536) then 0
  else match exp2Fin (delta < 0) delta.natAbs (-16) with
    | .fin _ m e st => (roundToInt .rne 0 false m (e + 40) st).1
    | _ => 0

/-- Two component vectors combined with weights that count 2^-16 (R286). -/
def combine (p : Int) (xs : List Int) (q : Int) (ys : List Int) : List Int :=
  (xs.zip ys).map (fun c => p * c.1 + q * c.2)
def align (p lx : Int) (x : List Int) (q ly : Int) (y : List Int) : List Int × Word32 × Flags :=
  if ly ≤ lx then renorm (combine (p * 2 ^ 40) x (q * alignFactor (ly - lx)) y) (-71) lx
  else renorm (combine (p * alignFactor (lx - ly)) x (q * 2 ^ 40) y) (-71) ly

/-! ### Issuing -/

/-- Effects that form a group: components at lc, norm and flags at ln (R290). -/
def Tile.formGroup (t : Tile) (e : Env) (d k lc ln : Nat) (r : List Int × Word32 × Flags) : Tile :=
  (t.pushAll e (e.now + lc) (writeComps d k r.1)).pushAll e (e.now + ln) (writeNorm d k r.2.1 ++ [.flags r.2.2])

/-- The rows of an ordinary vector of 128 k elements (R292). -/
def rowsOf (fmt : Fmt) (k : Nat) : Nat := 128 * k / perRow fmt
/-- The RESCOMBO reasons of DNORM and DCVT (R289). -/
def runCombo (e : Env) (fmt : Fmt) (k : Nat) (v : View) : Option Nat :=
  comboOf [(!Fmt.isFl fmt, 0),
    (!viewIsRow v || (Fmt.isFl fmt && 16 * e.panels < viewRowNo v + rowsOf fmt k), 3)]
/-- A finite float as a count of 2^-149. -/
def fix149 : Num → Int
  | .fin n m e _ => let v : Nat := m * 2 ^ (e + 149).toNat; if n then -(v : Int) else v
  | _ => 0
def infUnit : Num → Int
  | .inf n => if n then -1 else 1
  | _ => 0

def issueDnorm (fmt : Fmt) (g : Grp) (d : BitVec 6) (a : View) : Issue := onTile fun e t =>
  let k := g.size
  orCombo e (runCombo e fmt k a)
    (let r := viewRowNo a
     let vs := (List.range (128 * k)).map (fun i =>
       elemValue fmt (elemAt fmt (t.vrow (r + i / perRow fmt)) (i % perRow fmt)))
     let res :=
       if vs.any Num.isNan then (vs.map (fun _ => 0), normNan, anySig vs)
       else if vs.any Num.isInf then
         let q := renorm (vs.map infUnit) 0 0
         (q.1, normInf, q.2.2)
       else renorm (vs.map fix149) (-149) 0
     .ok (t.formGroup e d.toNat k (8 + 2 * k) (10 + 2 * k) res))

/-- 2^(l 2^-16) c 2^x as a number (R293, R294). -/
def scaled (l c x : Int) : Num :=
  if c = 0 then .zero false
  else match exp2Fin (l < 0) l.natAbs (-16) with
    | .fin _ m e st => .fin (decide (c < 0)) (m * c.natAbs) (e + x) st
    | y => y

def issueDcvt (fmt : Fmt) (g : Grp) (dst : View) (a : BitVec 6) : Issue := onTile fun e t =>
  let k := g.size
  orCombo e (runCombo e fmt k dst)
    (let f := flOf fmt
     let grp := t.group a.toNat k
     let one (c : Int) : Nat × Flags :=
       match grp.1 with
       | .fin l => roundFmt f .rne false 0 (scaled l c (-15))
       | .zero => (0, fZD)
       | .inf => (if c = 0 then 0 else (roundFmt f .rne false 0 (.inf (decide (c < 0)))).1, fNone)
       | .nan mem => ((roundFmt f .rne false 0 .dnan).1, fIf mem fNV)
     let rs := grp.2.map one
     let per := perRow fmt
     .ok (t.pushAll e (e.now + 4 + 2 * k)
       ((List.range (rowsOf fmt k)).map (fun i =>
          .cells (viewRowNo dst + i) allLanes (rowFrom fmt 0 (((rs.drop (per * i)).take per).map (·.1)))) ++
        [.flags (rs.foldl (fun fl r => fl ||| r.2) fNone)])))

/-- The exact dot product of components. -/
def dotInt (a b : List Int) : Int := (a.zip b).foldl (fun s p => s + p.1 * p.2) 0
/-- DDOT and DDOTN of two groups (R294); NV for D = 0 is DDOTN's alone (DEDUCED, log entry 75). -/
def ddotOf (norms : Bool) (a b : DCode × List Int) : Nat × Flags :=
  if a.1.isNan || b.1.isNan then (0x7FC00000, a.1.memFlag ||| b.1.memFlag)
  else if a.1 = .zero || b.1 = .zero then (0, fZD)
  else
    let d := dotInt a.2 b.2
    match a.1, b.1 with
    | .fin la, .fin lb => roundFmt fp32 .rne false 0 (if norms then scaled (la + lb) d (-30) else .ofScaled d (-30))
    | _, _ =>
      if !norms then roundFmt fp32 .rne false 0 (.ofScaled d (-30))
      else if d = 0 then (0x7FC00000, fNV)
      else (if d < 0 then 0xFF800000 else 0x7F800000, fNone)
def dotRes (norms : Bool) (f : DTri) : Issue := onTile fun e t =>
  let k := f.g.size
  let r := ddotOf norms (t.group f.a.toNat k) (t.group f.b.toNat k)
  .ok (t.pushAll e (e.now + 6 + k) [t.wScalar f.d (BitVec.ofNat 64 r.1), .flags r.2])
def issueDdot (f : DTri) : Issue := dotRes false f
def issueDdotn (f : DTri) : Issue := dotRes true f

def issueDsim (g : Grp) (dst : View) (a b : BitVec 6) : Issue := onTile fun e t =>
  let k := g.size
  orCombo e (comboOf [(!viewIsRow dst || 64 < 16 * k || 63 < b.toNat + 16 * k - 1, 3)])
    (let x := t.group a.toNat k
     let rs := (List.range 16).map (fun j => ddotOf false x (t.group (b.toNat + j * k) k))
     .ok (t.vPush e (8 + 2 * k) dst (rowFrom .f32 0 (rs.map (·.1)), rs.foldl (fun fl r => fl ||| r.2) fNone)))

/-- The low 32 bits of a scalar as a signed count of 2^-16. -/
def Tile.q16 (t : Tile) (s : BitVec 6) : Int := intVal 32 true (t.rs s).toNat
/-- DSCL adds to a finite norm (R296). -/
def dsclOf (n : Word32) (y : Int) : Word32 × Flags :=
  match dCode n with
  | .fin l => normSat (l + y)
  | .nan true => (normNan, fNV)
  | _ => (n, fNone)
def issueDscl (f : DPair) : Issue := onTile fun e t =>
  let r := dsclOf (t.normOf f.d.toNat) (t.q16 f.a)
  .ok (t.pushAll e (e.now + 1) [.norm f.d.toNat r.1, .flags r.2])
def issueDsetn (f : DPair) : Issue := onTile fun e t =>
  .ok (t.push e (e.now + 1) (.norm f.d.toNat ((t.rs f.a).extractLsb' 0 32)))
def issueDgetn (f : DPair) : Issue := onTile fun e t =>
  .ok (t.push e (e.now + 2) (t.wScalar f.d ((t.normOf f.a.toNat).signExtend 64)))
def issueDzt (_g : Grp) (p : BitVec 4) (a : BitVec 6) : Issue := onTile fun e t =>
  .ok (t.push e (e.now + 2) (.pred p.toNat (t.normOf a.toNat == normZero)))

/-- DNEG and DMOV: a member-coded source gives zero components and the NaN code (R297). -/
def copyGroup (neg : Bool) (f : DPair) : Issue := onTile fun e t =>
  let k := f.g.size
  let x := t.group f.a.toNat k
  let cs := if x.1 = .nan true then x.2.map (fun _ => 0) else if neg then x.2.map (fun c => -c) else x.2
  .ok (t.formGroup e f.d.toNat k 2 2 (cs, x.1.word, x.1.memFlag))
def issueDneg (f : DPair) : Issue := copyGroup true f
def issueDmov (f : DPair) : Issue := copyGroup false f

/-- One operand that is left alone (R298). -/
def survivor (w : Int) (x : DCode × List Int) : List Int × Word32 × Flags :=
  let u := if w < 0 then x.2.map (fun c => -c) else x.2
  match x.1 with
  | .fin l => renorm u (-15) l
  | _ => let r := renorm u (-15) 0; (r.1, normInf, r.2.2)
/-- Two groups with weights that count 2^-16 (R298). -/
def mixGroups (p : Int) (x : DCode × List Int) (q : Int) (y : DCode × List Int) : List Int × Word32 × Flags :=
  let zeros := x.2.map (fun _ => (0 : Int))
  if (p != 0 && x.1.isNan) || (q != 0 && y.1.isNan) then
    (zeros, normNan, (if p != 0 then x.1.memFlag else fNone) ||| (if q != 0 then y.1.memFlag else fNone))
  else
    let noX := p = 0 || x.1 = .zero
    let noY := q = 0 || y.1 = .zero
    let zd := fIf (x.1 = .zero || y.1 = .zero) fZD
    if noX && noY then (zeros, normZero, fZD)
    else if noX then let r := survivor q y; (r.1, r.2.1, r.2.2 ||| zd)
    else if noY then let r := survivor p x; (r.1, r.2.1, r.2.2 ||| zd)
    else match x.1, y.1 with
      | .fin lx, .fin ly =>
        let r := align p lx x.2 q ly y.2
        let sum := if ly ≤ lx then combine (p * 2 ^ 40) x.2 (q * alignFactor (ly - lx)) y.2
          else combine (p * alignFactor (lx - ly)) x.2 (q * 2 ^ 40) y.2
        (r.1, r.2.1, r.2.2 ||| fIf (sumSq sum = 0) fZD)
      | .fin _, _ => let r := renorm (y.2.map (q * ·)) (-31) 0; (r.1, normInf, r.2.2)
      | _, .fin _ => let r := renorm (x.2.map (p * ·)) (-31) 0; (r.1, normInf, r.2.2)
      | _, _ =>
        let u := combine p x.2 q y.2
        if sumSq u = 0 then (zeros, normNan, fNV)
        else let r := renorm u (-31) 0; (r.1, normInf, r.2.2)

/-- DADD and DSUB (R298, R290). -/
def addGroups (q : Int) (f : DTri) : Issue := onTile fun e t =>
  let k := f.g.size
  .ok (t.formGroup e f.d.toNat k (8 + 2 * k) (10 + 2 * k)
    (mixGroups 65536 (t.group f.a.toNat k) q (t.group f.b.toNat k)))
def issueDadd (f : DTri) : Issue := addGroups 65536 f
def issueDsub (f : DTri) : Issue := addGroups (-65536) f
def issueDmix (f : DTri) : Issue := onTile fun e t =>
  let k := f.g.size
  let w := clampInt 0 65536 (t.q16 f.b)
  let r := mixGroups (65536 - w) (t.group f.d.toNat k) w (t.group f.a.toNat k)
  .ok (t.formGroup e f.d.toNat k (8 + 2 * k) (10 + 2 * k) (r.1, r.2.1, r.2.2 ||| fIf (w != t.q16 f.b) fSAT))

/-- DPROJ of two groups (R299): a NaN code and a zero code stand beside zero components, and Q = 0 gives the zero code
of an infinite A too (DESIGN CHOICE, log entry 76). -/
def projGroups (a b : DCode × List Int) : List Int × Word32 × Flags :=
  let zeros := a.2.map (fun _ => (0 : Int))
  if a.1.isNan || b.1.isNan then (zeros, normNan, a.1.memFlag ||| b.1.memFlag)
  else if a.1 = .zero then (zeros, normZero, fZD)
  else if b.1 = .zero then (a.2, a.1.word, fZD)
  else
    let d := dotInt a.2 b.2
    let u := (a.2.zip b.2).map (fun p => p.1 * 2 ^ 30 - d * p.2)
    if sumSq u = 0 then (zeros, normZero, fZD)
    else match a.1 with
      | .fin l => renorm u (-45) l
      | _ => let r := renorm u (-45) 0; (r.1, normInf, r.2.2)
def issueDproj (f : DTri) : Issue := onTile fun e t =>
  let k := f.g.size
  .ok (t.formGroup e f.d.toNat k (12 + 2 * k) (14 + 2 * k) (projGroups (t.group f.a.toNat k) (t.group f.b.toNat k)))

end Sys2Proof.Machine
end

