-- ==== Sys2Proof/Machine/Scalar.lean ====
section
/-! DEFINITION. Issuing the S operations but MOVS and MOVT (13_scalar_instructions.md). -/
namespace Sys2Proof.Machine

/-! Shared effects -/

/-- A scalar result that lands after a latency (R238). -/
def scalarRes (lat : Nat) (d : BitVec 6) (f : Tile → BitVec 64) : Issue := onTile fun e t =>
  .ok (t.push e (e.now + lat) (t.wScalar d (f t)))
/-- A predicate result that lands after a latency (R238). -/
def predRes (lat : Nat) (d : BitVec 4) (f : Tile → Bool) : Issue := onTile fun e t =>
  .ok (t.push e (e.now + lat) (.pred d.toNat (f t)))

/-- The rounding mode of an operation that takes no stochastic rounding (12 R225). -/
def Tile.rmFixed (t : Tile) (rm : Rm) : Rm :=
  match rm with
  | .dyn => match rmOf t.regs.rmode.toNat with
    | some .sr => .rne
    | some .dyn => .rne
    | some m => m
    | none => .rne
  | m => m

/-- An FP operation of the scalar unit: result and flags at t + 4; code 5 is not accepted (R249). -/
def fpRes (d : BitVec 6) (rm : Rm) (f : Tile → Rm → BitVec 64 × Flags) : Issue := onTile fun e t =>
  if rm = .sr then .error (rescombo 0 e.slot)
  else
    let r := f t (t.rmFixed rm)
    .ok ((t.push e (e.now + 4) (t.wScalar d r.1)).push e (e.now + 4) (.flags r.2))

/-- A 12-bit immediate, sign-extended (R245). -/
def simm (i : BitVec 12) : BitVec 64 := i.signExtend 64
/-- A shift count (R243). -/
def cnt6 (x : BitVec 64) : Nat := x.toNat % 64

/-! Integer operations (R243-R245) -/

def issueAdd (d a b : BitVec 6) : Issue := scalarRes 1 d (fun t => t.rs a + t.rs b)
def issueSub (d a b : BitVec 6) : Issue := scalarRes 1 d (fun t => t.rs a - t.rs b)
def issueMul (d a b : BitVec 6) : Issue := scalarRes 3 d (fun t => t.rs a * t.rs b)
def issueMulh (d a b : BitVec 6) : Issue :=
  scalarRes 3 d (fun t => BitVec.ofInt 64 ((t.rs a).toInt * (t.rs b).toInt / 2 ^ 64))
def issueMulhu (d a b : BitVec 6) : Issue :=
  scalarRes 3 d (fun t => BitVec.ofNat 64 ((t.rs a).toNat * (t.rs b).toNat / 2 ^ 64))
def issueAnd (d a b : BitVec 6) : Issue := scalarRes 1 d (fun t => t.rs a &&& t.rs b)
def issueOr (d a b : BitVec 6) : Issue := scalarRes 1 d (fun t => t.rs a ||| t.rs b)
def issueXor (d a b : BitVec 6) : Issue := scalarRes 1 d (fun t => t.rs a ^^^ t.rs b)
def issueAndn (d a b : BitVec 6) : Issue := scalarRes 1 d (fun t => t.rs a &&& ~~~ t.rs b)
def issueShl (d a b : BitVec 6) : Issue := scalarRes 1 d (fun t => t.rs a <<< cnt6 (t.rs b))
def issueShr (d a b : BitVec 6) : Issue := scalarRes 1 d (fun t => t.rs a >>> cnt6 (t.rs b))
def issueSar (d a b : BitVec 6) : Issue := scalarRes 1 d (fun t => (t.rs a).sshiftRight (cnt6 (t.rs b)))
def rol64 (a : BitVec 64) (n : Nat) : BitVec 64 := (a <<< n) ||| (a >>> ((64 - n) % 64))
def issueRol (d a b : BitVec 6) : Issue := scalarRes 1 d (fun t => rol64 (t.rs a) (cnt6 (t.rs b)))
def issueMin (d a b : BitVec 6) : Issue := scalarRes 1 d (fun t => if (t.rs a).sle (t.rs b) then t.rs a else t.rs b)
def issueMax (d a b : BitVec 6) : Issue := scalarRes 1 d (fun t => if (t.rs a).sle (t.rs b) then t.rs b else t.rs a)
def issueMinu (d a b : BitVec 6) : Issue := scalarRes 1 d (fun t => if (t.rs a).ule (t.rs b) then t.rs a else t.rs b)
def issueMaxu (d a b : BitVec 6) : Issue := scalarRes 1 d (fun t => if (t.rs a).ule (t.rs b) then t.rs b else t.rs a)
/-- Leading zeros, 64 for zero (R243). -/
def clz64 (a : BitVec 64) : Nat := if a = 0 then 64 else 63 - Nat.log2 a.toNat
def popc64 (a : BitVec 64) : Nat := ((List.range 64).filter (fun i => a.getLsbD i)).length
def issueClz (d a : BitVec 6) : Issue := scalarRes 1 d (fun t => BitVec.ofNat 64 (clz64 (t.rs a)))
def issuePopc (d a : BitVec 6) : Issue := scalarRes 1 d (fun t => BitVec.ofNat 64 (popc64 (t.rs a)))
/-- w + 1 ones. -/
def ones (w : Nat) : BitVec 64 := BitVec.ofNat 64 (2 ^ (w + 1) - 1)
def issueExtb (d a b w : BitVec 6) : Issue := scalarRes 1 d (fun t => (t.rs a >>> cnt6 (t.rs b)) &&& ones w.toNat)
def insb (old a : BitVec 64) (pos w : Nat) : BitVec 64 :=
  (old &&& ~~~ (ones w <<< pos)) ||| ((a <<< pos) &&& (ones w <<< pos))
def issueInsb (d a b w : BitVec 6) : Issue :=
  scalarRes 1 d (fun t => insb (t.rs d) (t.rs a) (cnt6 (t.rs b)) w.toNat)
def issueSel (d a b : BitVec 6) (p : BitVec 4) : Issue := scalarRes 1 d (fun t => if t.rp p then t.rs a else t.rs b)
def issueAddi (d a : BitVec 6) (i : BitVec 12) : Issue := scalarRes 1 d (fun t => t.rs a + simm i)
def issueAndi (d a : BitVec 6) (i : BitVec 12) : Issue := scalarRes 1 d (fun t => t.rs a &&& simm i)
def issueOri (d a : BitVec 6) (i : BitVec 12) : Issue := scalarRes 1 d (fun t => t.rs a ||| simm i)
def issueXori (d a : BitVec 6) (i : BitVec 12) : Issue := scalarRes 1 d (fun t => t.rs a ^^^ simm i)
def issueShli (d a h : BitVec 6) : Issue := scalarRes 1 d (fun t => t.rs a <<< h.toNat)
def issueShri (d a h : BitVec 6) : Issue := scalarRes 1 d (fun t => t.rs a >>> h.toNat)
def issueSari (d a h : BitVec 6) : Issue := scalarRes 1 d (fun t => (t.rs a).sshiftRight h.toNat)
def issueLi (d : BitVec 6) (i : BitVec 32) : Issue := scalarRes 1 d (fun _ => i.signExtend 64)
def issueLih (d : BitVec 6) (i : BitVec 32) : Issue := scalarRes 1 d (fun t => i ++ (t.rs d).extractLsb' 0 32)

/-! Compares and predicates (R246, R248) -/

def issueCmpeq (d : BitVec 4) (a b : BitVec 6) : Issue := predRes 1 d (fun t => t.rs a == t.rs b)
def issueCmpne (d : BitVec 4) (a b : BitVec 6) : Issue := predRes 1 d (fun t => t.rs a != t.rs b)
def issueCmplt (d : BitVec 4) (a b : BitVec 6) : Issue := predRes 1 d (fun t => (t.rs a).slt (t.rs b))
def issueCmple (d : BitVec 4) (a b : BitVec 6) : Issue := predRes 1 d (fun t => (t.rs a).sle (t.rs b))
def issueCmpltu (d : BitVec 4) (a b : BitVec 6) : Issue := predRes 1 d (fun t => (t.rs a).ult (t.rs b))
def issueCmpleu (d : BitVec 4) (a b : BitVec 6) : Issue := predRes 1 d (fun t => (t.rs a).ule (t.rs b))
def issueCmpeqi (d : BitVec 4) (a : BitVec 6) (i : BitVec 12) : Issue := predRes 1 d (fun t => t.rs a == simm i)
def issueCmplti (d : BitVec 4) (a : BitVec 6) (i : BitVec 12) : Issue := predRes 1 d (fun t => (t.rs a).slt (simm i))
def issuePand (d a b : BitVec 4) : Issue := predRes 1 d (fun t => t.rp a && t.rp b)
def issuePor (d a b : BitVec 4) : Issue := predRes 1 d (fun t => t.rp a || t.rp b)
def issuePxor (d a b : BitVec 4) : Issue := predRes 1 d (fun t => t.rp a != t.rp b)
def issuePnot (d a : BitVec 4) : Issue := predRes 1 d (fun t => !t.rp a)
/-- MOVP: the predicates that the second source names, one effect each (R248). -/
def issueMovp (a b : BitVec 6) : Issue := onTile fun e t =>
  .ok (t.pushAll e (e.now + 1) ((((List.range 16).filter (fun i => 1 ≤ i && (t.rs b).getLsbD i))).map
    (fun i => .pred i ((t.rs a).getLsbD i))))
def issueMovps (d : BitVec 6) : Issue :=
  scalarRes 1 d (fun t => BitVec.ofNat 64 (t.regs.preds.toNat / 2 * 2 + 1))

/-! Floating point (R249-R251) -/

/-- The FP32 number in bits [31:0] of a scalar. -/
def Tile.f32 (t : Tile) (a : BitVec 6) : Num := elemValue .f32 (t.rs a).toNat
/-- A sum or product rounded once into FP32, in bits [31:0]. -/
def toF32 (rm : Rm) (r : Num × Flags) : BitVec 64 × Flags :=
  let q := roundFmt fp32 rm false 0 r.1
  (BitVec.ofNat 64 q.1, r.2 ||| q.2)

def issueFadd (d a b : BitVec 6) (rm : Rm) : Issue :=
  fpRes d rm (fun t m => toF32 m (addNum (m == .rd) (t.f32 a) (t.f32 b)))
/-- a - b: a NaN keeps its own sign. -/
def subNum (rd : Bool) (x y : Num) : Num × Flags := addNum rd x (if y.isNan then y else y.negate)
def issueFsub (d a b : BitVec 6) (rm : Rm) : Issue :=
  fpRes d rm (fun t m => toF32 m (subNum (m == .rd) (t.f32 a) (t.f32 b)))
def issueFmul (d a b : BitVec 6) (rm : Rm) : Issue := fpRes d rm (fun t m => toF32 m (mulNum (t.f32 a) (t.f32 b)))
/-- a b + x, where 0 x Inf gives the default NaN also with a quiet NaN as x (R249). -/
def ffmaNum (rd : Bool) (a b x : Num) : Num × Flags :=
  let p := mulNum a b
  if !a.isNan && !b.isNan && p.1.isNan && !x.isSNan then (.dnan, fNV) else fmaNum rd a b x
def issueFfma (d a b x : BitVec 6) (rm : Rm) : Issue :=
  fpRes d rm (fun t m => toF32 m (ffmaNum (m == .rd) (t.f32 a) (t.f32 b) (t.f32 x)))
/-- An FP compare: its predicate and flags at t + 4 (R250). -/
def fcmpRes (d : BitVec 4) (f : Tile → Bool × Flags) : Issue := onTile fun e t =>
  .ok ((t.push e (e.now + 4) (.pred d.toNat (f t).1)).push e (e.now + 4) (.flags (f t).2))
def issueFcmplt (d : BitVec 4) (a b : BitVec 6) : Issue :=
  fcmpRes d (fun t => (!(t.f32 a).isNan && !(t.f32 b).isNan && ltNum (t.f32 a) (t.f32 b),
    fIf ((t.f32 a).isNan || (t.f32 b).isNan) fNV))
def issueFcmpeq (d : BitVec 4) (a b : BitVec 6) : Issue :=
  fcmpRes d (fun t => (eqNum (t.f32 a) (t.f32 b), anySig [t.f32 a, t.f32 b]))
/-- A w-bit result extended to a scalar by its signedness. -/
def extendTo (w : Nat) (uns : Bool) (x : Nat) : BitVec 64 := BitVec.ofInt 64 (intVal w (!uns) x)
def issueFcvti (d a : BitVec 6) (w64 uns sat : Bool) (rm : Rm) : Issue :=
  fpRes d rm (fun t m =>
    let w := if w64 then 64 else 32
    let r := floatToInt w (!uns) m sat 0 (t.f32 a)
    (extendTo w uns r.1, r.2))
def issueFcvtf (d a : BitVec 6) (w64 uns : Bool) (rm : Rm) : Issue :=
  fpRes d rm (fun t m => toF32 m (Num.ofInt (intVal (if w64 then 64 else 32) (!uns) (t.rs a).toNat), fNone))

end Sys2Proof.Machine
end

