-- ==== Sys2Proof/Config.lean ====
section
/-! DEFINITION. What the spec leaves to one module or leaves open, as constants without a body: no proof can see their
values. -/
namespace Sys2Proof.Config

/-- The energy of one activity event of a kind, in units of 2^-10 µJ (28 R466; DESIGN CHOICE, log entry 9). Kinds: 0 bundle issue,
1 engine step, 2 vault command or guard refresh, 3 Shuttle beat, 4 dynamic access, 5 keep-store chunk, 6 access over a link,
7 access through a service controller, 8 page walk, 9 image or control block that the save engine writes. -/
opaque eventEnergy : Nat → BitVec 64
/-- A byte that a peer module returns: the number of the access and the physical address (22 R386; DESIGN CHOICE, log entry 7). -/
opaque peerByte : Nat → Nat → Byte
/-- Whether work of other modules has written a byte of a peer module that this module wrote before the access of a number
(22 R386; DESIGN CHOICE, log entry 7). -/
opaque peerWrote : Nat → Nat → Bool
/-- Whether a peer module refuses the access of a number (07 R125; DESIGN CHOICE, log entry 7). -/
opaque peerRefuses : Nat → Bool
/-- The other fault that a peer module finds in the access of a number, by its place among those that its target can
raise, if it finds one; and the claim party that a race there reports (07 R114, 09 R152, R163, R166; DESIGN CHOICE, log
entry 7). -/
opaque peerFault : Nat → Option Nat
opaque peerWp : Nat → Nat
/-- Of a plot that spans modules, what its part on the other modules does, by a count: whether it is ready for the next
plot pulse or the release from a hold, whether its clusters' patterns miss the budget, the arrivals, bytes, flags, ERR
and ESUB that it adds to a barrier, and TVAL of a plot stop that it sends (01 R25, 09 R171, 27 R439; DESIGN CHOICE, log
entry 7). -/
opaque peerReady : Nat → Bool
opaque peerLate : Nat → Bool
opaque peerCount : Nat → Nat → Nat × Nat × BitVec 8 × BitVec 8 × BitVec 8
opaque peerStop : Nat → BitVec 64
/-- How far a link training sets the selvage clock ahead to meet that of module 0 (29 R476; DESIGN CHOICE, log entry 7). -/
opaque groupClock : Nat → BitVec 64
/-- Whether the parity of a cluster in retention holds as it is checked in the sequence of a supply loss, by a count (28
R471; DESIGN CHOICE, log entry 49). -/
opaque parityOk : Nat → Bool
/-- The SHA-384 digest of bytes (30 R491, R493; DESIGN CHOICE, log entry 8). -/
opaque sha384 : List Byte → BitVec 384
/-- The Ed25519 signature over a transcript (30 R492; DESIGN CHOICE, log entry 8). -/
opaque ed25519 : List Byte → BitVec 512
/-- The ML-DSA-65 signature over a transcript (30 R492; DESIGN CHOICE, log entry 8). -/
opaque mldsa65 : List Byte → List Byte
/-- The bytes that measurements 1 to 3 are taken over: the boot ROM and the firmware images (30 R491; DESIGN CHOICE, log entry 8). -/
opaque firmware : Nat → List Byte

end Sys2Proof.Config
end

