-- ==== Sys2Proof/Machine/Barrier.lean ====
section
/-! DEFINITION. Named barriers: instances, counts, errors of a barrier's own, set-up by BARI, completion of a phase
and the sc in which it is seen (09 R169-R174, R499, 19 R351). -/
namespace Sys2Proof.Machine

/-- The tiles of the instance of barrier b that contains tile n, but for those that have left the plot; sb47 (48) is a
tile's own (27 R435). -/
def State.members (s : State) (n b : Nat) : List Nat :=
  match s.plotOf n with
  | some pl => if b = 48 then [n]
      else ((instOf pl (s.tile n).lx (s.tile n).ly ((s.tile n).bar b)).tiles pl).filter (fun m =>
        (s.tile m).plot == (s.tile n).plot)
  | none => [n]

def State.mapBar (s : State) (b : Nat) (f : Bar → Bar) (ms : List Nat) : State :=
  ms.foldl (fun s m => s.mapTile m (fun t => t.setBar b (f (t.bar b)))) s

/-- The first error of a phase is kept (R173, R174). -/
def Bar.addErr (b : Bar) (err esub : BitVec 8) : Bar :=
  if err != 0 && b.err == 0 then { b with err := err, esub := esub } else b

/-- Counts added, each field held at its largest value, with the error of R171 where it would pass it. -/
def Bar.addCount (b : Bar) (arr bytes : Nat) : Bar :=
  let a := b.arrCnt.toNat + arr
  let y := b.byteCnt.toNat + bytes
  let c := { b with arrCnt := BitVec.ofNat 16 (Nat.min a 0xFFFF), byteCnt := BitVec.ofNat 32 (Nat.min y 0xFFFFFFFF) }
  let c := if 0xFFFF < a then c.addErr 0x0C 0xC8 else c
  if 0xFFFFFFFF < y then c.addErr 0x0C 0xC9 else c

/-- Counts, flags and an error that reach the instance of barrier b of tile n (R171, R174). -/
def State.count (s : State) (n b arr bytes : Nat) (f : Flags) (err esub : BitVec 8) : State :=
  s.mapBar b (fun r => { ((r.addErr err esub).addCount arr bytes) with flags := r.flags ||| f }) (s.members n b)

/-- The test of R172. -/
def Bar.completes (b : Bar) : Bool :=
  b.armed && !(b.arrExp == 0 && b.byteExp == 0) && b.arrExp.toNat ≤ b.arrCnt.toNat &&
  (b.byteExp.toNat ≤ b.byteCnt.toNat || b.err != 0)

/-- A completed phase (R172), to be seen from sc u. -/
def Bar.complete (b : Bar) (u : Nat) : Bar :=
  { b with arrCnt := b.arrCnt - b.arrExp, byteCnt := if b.err != 0 then 0 else b.byteCnt - b.byteExp,
           lerr := b.err, lesub := b.esub, lflags := b.flags, err := 0, esub := 0, flags := 0,
           phase := !b.phase, seenAt := b.seenAt ++ [u], tested := true }

/-- The end of the sc of a tile's plot has come, or the plot is paused: every tile of it has had its turn. -/
def State.scOver (s : State) (n : Nat) : Bool :=
  match (s.tile n).plot, s.plotOf n with
  | some k, some pl => pl.st = .paused ||
      (pl.st = .running && pl.tileList.all (fun m => (s.tile m).plot != some k || (s.tile m).turn))
  | _, _ => false
/-- The end-of-sc test of the instance of a barrier of a tile, with a phase that completes (R172, R173). -/
def State.phaseDue (s : State) (n b : Nat) : Bool :=
  let r := (s.tile n).bar b
  r.completes && !r.tested && s.scOver n
/-- Sc from the completion of a phase to the common sc in which every member sees it: 641 for an instance that spans
modules, but before the plot resumes where it is paused (R172, R173). -/
def State.seenLag (s : State) (n b : Nat) : Nat :=
  match s.plotOf n with
  | some pl => if b != 48 && pl.st != .paused && Inst.spans pl (instOf pl (s.tile n).lx (s.tile n).ly ((s.tile n).bar b))
      then 641 else 1
  | none => 1
def State.phaseComplete (s : State) (n b : Nat) : State :=
  if s.phaseDue n b then s.mapBar b (fun r => r.complete (s.now n + s.seenLag n b)) (s.members n b) else s

/-- The tags of the windows that a barrier governs cleared (R167). -/
def Tile.clearClaims (t : Tile) (b : Nat) : Tile :=
  { t with tags := t.tags.filter (fun p => !(t.wins.any (fun w => w.shared && w.bar == b && w.base ≤ 64 * p.1 &&
      64 * p.1 < w.base + w.size))) }

/-- Every member sees the completed phase from this sc on, and the claims of the barrier's windows clear (R167, R173). -/
def State.seenDue (s : State) (n b : Nat) : Bool := ((s.tile n).bar b).seenAt.any (· ≤ s.now n)
/-- A record once its tile has seen a completion that is to be seen by sc u. -/
def Bar.see (r : Bar) (u : Nat) : Bar :=
  if r.seenAt.any (· ≤ u) then { r with seen := !r.seen, seenAt := r.seenAt.eraseP (· ≤ u) } else r
def State.completionSeen (s : State) (n b : Nat) : State :=
  if s.seenDue n b then
    let u := s.now n
    (s.members n b).foldl (fun s m => s.mapTile m (fun t => (t.setBar b ((t.bar b).see u)).clearClaims b)) s
  else s

/-! ### Set-up by BARI -/

/-- What a BARI writes (R351). -/
structure BariF where
  scope : BitVec 2
  bedw : BitVec 3
  bedh : BitVec 3
  arr : BitVec 16
  bytes : BitVec 32
deriving DecidableEq, Repr

/-- The fields of a BARI, BEDW and BEDH zero below bed scope (R351). -/
def bariF (sc : BScope) (arr : BitVec 16) (bedw bedh : BitVec 3) (bytes : BitVec 32) : BariF :=
  ⟨BitVec.ofNat 2 sc.code, if sc = .tile then 0 else bedw, if sc = .tile then 0 else bedh, arr, bytes⟩

/-- The BARI of a tile on a barrier that lands in sc u. -/
def bariAt (t : Tile) (bar u : Nat) : Option BariF :=
  t.pend.findSome? (fun p => match p.act with
    | .bari b sc arr bedw bedh bytes => if p.due = u && b = bar then some (bariF sc arr bedw bedh bytes) else none
    | _ => none)
/-- The tile without the BARIs on a barrier that land in sc u. -/
def dropBari (bar u : Nat) (t : Tile) : Tile :=
  { t with pend := t.pend.filter (fun p => match p.act with
      | .bari b _ _ _ _ _ => !(p.due = u && b = bar)
      | _ => true) }

def BariF.changes (f : BariF) (b : Bar) : Bool := f.scope != b.scope || f.bedw != b.bedw || f.bedh != b.bedh
def BariF.into (f : BariF) (b : Bar) : Bar :=
  { b with scope := f.scope, bedw := f.bedw, bedh := f.bedh, arrExp := f.arr, byteExp := f.bytes, armed := true }

/-- Every BARI of a plot on one barrier in one sc takes effect at once (R351, R499): an instance whose members agree
takes their fields; where members disagree, or a member of a regrouped instance issues none, the lowest-ranked one's
fields are taken with the error 0xCA; a regrouped instance starts afresh. own: the fields of tile n
(DEDUCED, log entry 17). A regrouping's error stands in the records of the members that issue the BARI alone (DESIGN
CHOICE, log entry 61). -/
def State.bariAll (s : State) (n bar : Nat) (own : BariF) : State :=
  let u := s.now n
  let ms := match s.plotOf n with
    | some pl => if bar = 48 then [n] else pl.tileList
    | none => [n]
  let fs := ms.filterMap (fun m => if m = n then some (m, own) else (bariAt (s.tile m) bar u).map (fun f => (m, f)))
  let one (m : Nat) (f : BariF) (st : State) : State :=
    let old := (s.tile m).bar bar
    let here := (s.setTile m ((s.tile m).setBar bar (f.into old))).members m bar
    let peers := fs.filter (fun p => here.contains p.1)
    if f.changes old then
      let lead := ((peers.filter (fun p => !(p.2.changes (f.into old)))).head?.map (·.2)).getD f
      let agree := peers.length == here.length && peers.all (fun p => p.2 == lead)
      let new := lead.into { Bar.reset with tested := old.tested }
      st.mapBar bar (fun _ => if agree then new else new.addErr 0x0C 0xCA) [m]
    else
      let stay := peers.filter (fun p => !(p.2.changes old))
      let lead := (stay.head?.map (·.2)).getD f
      let agree := peers.all (fun p => p.2 == lead)
      let new := lead.into old
      st.mapBar bar (fun _ => if agree then new else new.addErr 0x0C 0xCA)
        (here.filter (fun k => !(fs.any (fun p => p.1 == k && p.2.changes old))))
  let s' := fs.foldl (fun st p => one p.1 p.2 st) s
  ms.foldl (fun st m => st.mapTile m (dropBari bar u)) s'

end Sys2Proof.Machine
end

