-- ==== Sys2Proof/Machine/Xlate.lean ====
section
/-! DEFINITION. Contexts, physical addresses (07 R114), range entries (R115), translation (R112-R119), replicated
ranges (R122), and accesses to memory by dynamic work with their errors and claims (R163, R166). -/
namespace Sys2Proof.Machine

def State.ctx (s : State) (c : Nat) : Ctx := aget Ctx.reset s.ctxs c
def State.mapCtx (s : State) (c : Nat) (f : Ctx → Ctx) : State := { s with ctxs := aset s.ctxs c (f (s.ctx c)) }
def State.cluster (s : State) (c : Nat) : Cluster := aget Cluster.reset s.clusters c
def State.mapCluster (s : State) (c : Nat) (f : Cluster → Cluster) : State :=
  { s with clusters := aset s.clusters c (f (s.cluster c)) }
/-- The number of the Loom's copy channel among the clusters (24 R411). -/
def loomChannel : Nat := 32
/-- The context that runs on a tile. -/
def State.ctxOf (s : State) (n : Nat) : Nat := match s.plotOf n with | some pl => pl.ctx | none => 0
/-- An activity event charged to a context (28 R466; DESIGN CHOICE, log entry 9). -/
def State.charge (s : State) (c kind : Nat) : State :=
  s.mapCtx c (fun x => { x with energy := x.energy + Config.eventEnergy kind })

/-! ### Physical addresses -/

/-- A module of the plot group (30 R488): index 2 x row + column. -/
def State.hasModule (s : State) (m : Nat) : Bool := m % 2 < s.group.1 && m / 2 < s.group.2.1
/-- The link of the partner that a link of module m pairs with towards a partner module (R488). -/
def pairedLink (m peer link : Nat) : Option Nat :=
  if m / 2 = peer / 2 && m % 2 = 0 && peer % 2 = 1 then
    (match link with | 6 => some 0 | 7 => some 1 | _ => none)
  else if m / 2 = peer / 2 && m % 2 = 1 && peer % 2 = 0 then
    (match link with | 0 => some 6 | 1 => some 7 | _ => none)
  else if m % 2 = peer % 2 && m / 2 = 0 && peer / 2 = 1 then
    (match link with | 2 => some 4 | 3 => some 5 | 8 => some 10 | 9 => some 11 | _ => none)
  else if m % 2 = peer % 2 && m / 2 = 1 && peer / 2 = 0 then
    (match link with | 4 => some 2 | 5 => some 3 | 10 => some 8 | 11 => some 9 | _ => none)
  else none
/-- The links of module m that a plot of w x h tiles needs towards its other modules (30 R488, R489). -/
def spanLinks (m w h : Nat) : List Nat :=
  (if 32 < w then (if m % 2 = 0 then [6, 7] else [0, 1]) else []) ++
  (if 16 < h then (if m / 2 = 0 then [2, 3, 8, 9] else [4, 5, 10, 11]) else [])
/-- A plot of w x h tiles has tiles on this module, every module of it is in the plot group, and every link of this module
that it spans has its stream lane (01 R20, 23 R389, 30 R489) (DESIGN CHOICE, log entry 7 for the links of other modules). -/
def State.spanUp (s : State) (w h : Nat) : Bool :=
  let m := s.group.2.2
  (w ≤ 32 && h ≤ 16) || (s.model != .d24 && (if 32 < w then s.group.1 = 2 else m % 2 = 0) &&
    (if 16 < h then s.group.2.1 = 2 else m / 2 = 0) && (spanLinks m w h).all (fun l => (s.link l).stream))
/-- Logical coordinates of the first tile of a plot on this module (23 R389). -/
def State.firstX (s : State) (w : Nat) : Nat := if 32 < w then 32 * (s.group.2.2 % 2) else 0
def State.firstY (s : State) (h : Nat) : Nat := if 16 < h then 16 * (s.group.2.2 / 2) else 0
/-- The link that carries accesses to a module of the group: the lowest that is up to it, or, where none leads there
directly, to another module of the group (DESIGN CHOICE, log entry 7). -/
def State.linkTo (s : State) (p : Nat) : Option Nat :=
  let up (ok : Nat → Bool) : Option Nat :=
    (List.range s.model.links).find? (fun l => (s.link l).state = 2 && ok (s.link l).peerMod.toNat)
  let far := p % 2 != s.group.2.2 % 2 && p / 2 != s.group.2.2 / 2
  (up (· == p)).or (if far then up (fun q => q < 4 && q != s.group.2.2) else none)
/-- The service marking of a tile names a stratum (04 R82). -/
def State.marked (s : State) (n st : Nat) : Bool := (s.tile n).vault.svcMark.getLsbD st

/-- A checked physical address: on this module, in host memory, or on a peer. -/
inductive Place where
  | here (pa : Nat)
  | peer (pa : Nat)
  | bad
deriving DecidableEq, Repr

/-- The check of a local address of region 0 or 1 (R114). -/
def State.localPlace (s : State) (pa : Nat) : Place :=
  let n := if pa / 2 ^ 48 = 0 then pa / 2 ^ 29 % 512 else pa / 2 ^ 20 % 512
  if s.model.tiles ≤ n then .bad
  else if pa / 2 ^ 48 = 0 then
    if pa / 2 ^ 38 % 1024 = 0 && s.marked n (pa / 2 ^ 27 % 4) then .here pa else .bad
  else if pa / 2 ^ 29 % 2 ^ 19 = 0 && pa % 2 ^ 20 < spadSize then .here pa
  else .bad

/-- The bits that an address of a peer module holds behind its region code (R114); which strata its tiles have marked is
the peer's. -/
def peerOk (code rest : Nat) : Bool :=
  if code = 0 then rest / 2 ^ 38 = 0 else code = 1 && rest / 2 ^ 29 = 0 && rest % 2 ^ 20 < spadSize
/-- The check of R114, with an address of the own module brought to its own region. -/
def State.place (s : State) (pa : Nat) : Place :=
  let r := pa / 2 ^ 48
  if r < 2 then s.localPlace pa
  else if r < 4 then .bad
  else if r < 8 then
    let code := pa / 2 ^ 44 % 16
    if 2 ≤ code then .bad
    else if r - 4 = s.group.2.2 then s.localPlace (code * 2 ^ 48 + pa % 2 ^ 44)
    else if s.hasModule (r - 4) && peerOk code (pa % 2 ^ 44) then .peer pa else .bad
  else if r < 16 then .here pa
  else .bad

/-- An address of the own module in its own region, whichever of the two ways names it (R114). -/
def State.ownPa (s : State) (pa : Nat) : Nat :=
  let r := pa / 2 ^ 48
  if 4 ≤ r && r < 8 && r - 4 = s.group.2.2 then pa / 2 ^ 44 % 16 * 2 ^ 48 + pa % 2 ^ 44 else pa
/-- The tile and offset of a scratchpad address. -/
def spadOf (pa : Nat) : Option (Nat × Nat) :=
  if pa / 2 ^ 48 = 1 then some (pa / 2 ^ 20 % 512, pa % 2 ^ 20) else none

/-! ### Range entries (R115) -/

abbrev RangeE := BitVec 256
def RangeE.v (e : RangeE) : Bool := e.getLsbD 63
def RangeE.vbase (e : RangeE) : Nat := (e.extractLsb' 12 44).toNat
def RangeE.vlast (e : RangeE) : Nat := (e.extractLsb' 76 44).toNat
def RangeE.r (e : RangeE) : Bool := e.getLsbD 128
def RangeE.w (e : RangeE) : Bool := e.getLsbD 129
def RangeE.at' (e : RangeE) : Bool := e.getLsbD 130
def RangeE.twin (e : RangeE) : Bool := e.getLsbD 131
def RangeE.repl (e : RangeE) : Bool := e.getLsbD 132
def RangeE.shared (e : RangeE) : Bool := e.getLsbD 133
def RangeE.fsel (e : RangeE) : Bool := e.getLsbD 134
def RangeE.base0 (e : RangeE) : Nat := (e.extractLsb' 140 40).toNat
def RangeE.base1 (e : RangeE) : Nat := (e.extractLsb' 204 40).toNat
def RangeE.cmask (e : RangeE) : BitVec 32 := e.extractLsb' 192 32
/-- The face and the shadow of a twin range (R120). -/
def RangeE.face (e : RangeE) : Nat := if e.fsel then e.base1 else e.base0
def RangeE.shadow (e : RangeE) : Nat := if e.fsel then e.base0 else e.base1
/-- FSEL toggled. -/
def RangeE.swap (e : RangeE) : RangeE := e ^^^ BitVec.ofNat 256 (2 ^ 134)
/-- The clusters that hold a replica, ascending. -/
def RangeE.clusters (e : RangeE) : List Nat := (List.range 32).filter (fun c => e.cmask.getLsbD c)
def RangeE.covers (e : RangeE) (va : BitVec 64) : Bool :=
  let p := va.toNat / 2 ^ 12 % 2 ^ 44
  e.v && e.vbase ≤ p && p ≤ e.vlast

/-- The valid range entry that holds a table-space address, with its number. -/
def rangeOf (rs : Store 256) (va : BitVec 64) : Option (Nat × RangeE) :=
  if va.getLsbD 56 then none else rs.find? (fun p => RangeE.covers p.2 va)

/-- The copy in cluster c of an address in region 0 (R122). -/
def replicaPa (c pa : Nat) : Nat :=
  let n := pa / 2 ^ 29 % 512
  let n' := 256 * (c / 16) + 16 * (4 * (c % 16 / 4) + tileY n % 4) + 4 * (c % 4) + n % 4
  n' * 2 ^ 29 + pa % 2 ^ 29
/-- Bytes that an entry spans. -/
def RangeE.size (e : RangeE) : Nat := (RangeE.vlast e + 1 - RangeE.vbase e) * 4096
/-- The physical spans of an entry: its base, both bases of a twin, every copy of a replicated range. -/
def RangeE.spans (e : RangeE) : List (Nat × Nat) :=
  let n := RangeE.size e
  if RangeE.repl e then (RangeE.clusters e).map (fun c => (replicaPa c (RangeE.base0 e * 4096), n))
  else if RangeE.twin e then [(RangeE.base0 e * 4096, n), (RangeE.base1 e * 4096, n)]
  else [(RangeE.base0 e * 4096, n)]
def spansMeet (a b : Nat × Nat) : Bool := a.1 < b.1 + b.2 && b.1 < a.1 + a.2
def anyMeet (a b : List (Nat × Nat)) : Bool := a.any (fun x => b.any (spansMeet x))
/-- Cluster steps between two clusters. -/
def clusterSteps (a b : Nat) : Nat :=
  let x (c : Nat) := 4 * (c / 16) + c % 4
  let y (c : Nat) := c % 16 / 4
  (x a - x b) + (x b - x a) + (y a - y b) + (y b - y a)
/-- The replica that serves a reader's cluster; the Loom is served by the first base (R122). -/
def nearest (reader : Nat) (cs : List Nat) (home : Nat) : Nat :=
  if reader = loomChannel then home
  else cs.foldl (fun best c => if clusterSteps reader c < clusterSteps reader best then c else best) (cs.headD home)

/-! ### Translation (R118) -/

inductive AKind where
  | read | write | atomic
deriving DecidableEq, Repr

/-- What a translation gives: the physical addresses to reach (several for a write to a replicated range), an address
on a peer, a fault, or a page that has still to be walked. -/
inductive Xres where
  | ok (pas : List Nat)
  | peer (pa : Nat)
  | fault (cause : BitVec 8) (sub : Nat)
  | miss (page : Nat)
deriving DecidableEq, Repr

def xlateF (sub : Nat) : Xres := .fault 0x10 sub
def accessF (sub : Nat) : Xres := .fault 0x11 sub

/-- The rights a kind of access lacks first (R118). -/
def lacks (r w a : Bool) : AKind → Option Nat
  | .read => if r then none else some 0x71
  | .write => if w then none else some 0x70
  | .atomic => if !r then some 0x71 else if !w then some 0x70 else if !a then some 0x72 else none

def State.xplace (s : State) (pa : Nat) : Xres :=
  match s.place pa with
  | .here pa => .ok [pa]
  | .peer pa => .peer pa
  | .bad => xlateF 0x62
/-- Every copy of a replicated write. -/
def State.xplaces (s : State) (pas : List Nat) : Xres :=
  if pas.all (fun pa => s.place pa == .here pa) then .ok pas else xlateF 0x62

/-- Plot scratchpad space (R113). The Loom runs in no plot, and such an address of its work faults as one outside the plot
(DESIGN CHOICE, log entry 59). -/
def State.plotSpad (s : State) (pl : Option Plot) (va : BitVec 64) : Xres :=
  let v := va.toNat
  let x := v / 2 ^ 25 % 64
  let y := v / 2 ^ 20 % 32
  match pl with
  | some pl =>
    if v / 2 ^ 31 % 2 ^ 25 = 0 && x < pl.w && y < pl.h && v % 2 ^ 20 < spadSize then
      if pl.mine x y then s.xplace (spadBase (pl.tileAt x y) + v % 2 ^ 20)
      else
        let col := if 32 < pl.w then x / 32 else 0
        let row := if 16 < pl.h then y / 16 else 0
        s.xplace ((4 + 2 * row + col) * 2 ^ 48 + 2 ^ 44 +
          tileIdx (pl.x0 + (x - 32 * col)) (pl.y0 + (y - 16 * row)) * 2 ^ 20 + v % 2 ^ 20)
    else xlateF 0x63
  | none => xlateF 0x63

def pageBits : Nat → Nat
  | 1 => 30
  | 2 => 25
  | _ => 19
/-- Place and width of the index of a level (R117). -/
def lvlIndex (va lvl : Nat) : Nat :=
  match lvl with
  | 0 => va / 2 ^ 43 % 8192
  | 1 => va / 2 ^ 30 % 8192
  | 2 => va / 2 ^ 25 % 32
  | _ => va / 2 ^ 19 % 64
/-- Bytes of the table of a level. -/
def tableSize (lvl : Nat) : Nat := match lvl with | 0 => 65536 | 1 => 65536 | 2 => 256 | _ => 512
def pteAddr (pte : BitVec 64) : Nat := pte.toNat / 256 % 2 ^ 44 * 256

/-- A malformed page-table entry (R118). -/
def pteBad (pte : BitVec 64) (lvl : Nat) : Bool :=
  let leaf := pte.getLsbD 1
  let reg := pteAddr pte / 2 ^ 48
  pte.toNat / 2 ^ 52 != 0 || pte.getLsbD 7 || pte.getLsbD 5 || (leaf && lvl == 0) || (!leaf && lvl == 3) ||
  (!leaf && (pte.getLsbD 6 || pte.getLsbD 4 || pte.getLsbD 3 || pte.getLsbD 2)) ||
  (pteAddr pte % (if leaf then 2 ^ pageBits lvl else tableSize (lvl + 1)) != 0) || !(reg == 0 || 8 ≤ reg)

/-- A table walk from a table of a level on, in the tables that a memory holds (R118). -/
def State.walkFrom (s : State) (m : List Host.Cell) (va : Nat) : (fuel lvl t : Nat) → Found
  | 0, _, _ => .fault 0x61
  | fuel + 1, lvl, t =>
    let a := t + 8 * lvlIndex va lvl
    if s.memErr a 8 then .fault 0x65
    else
      let pte := BitVec.ofNat 64 (leNat (Memory.read m a 8))
      if !pte.getLsbD 0 then .fault 0x60
      else if pteBad pte lvl then .fault 0x61
      else if pte.getLsbD 1 then .leaf pte lvl
      else s.walkFrom m va fuel (lvl + 1) (pteAddr pte)
/-- A walk of a context's table as it was at the last invalidation (R129). -/
def State.walk (s : State) (c : Nat) (va : BitVec 64) : Found :=
  let root := (s.ctx c).ptActive.toNat
  if root = 0 then .fault 0x60 else s.walkFrom (s.ctx c).ptMem va.toNat 4 0 root

/-- What a walk's result gives an access. -/
def State.useFound (s : State) (f : Found) (va : BitVec 64) (k : AKind) : Xres :=
  match f with
  | .fault sub => xlateF sub
  | .leaf pte lvl =>
    match lacks (pte.getLsbD 2) (pte.getLsbD 3) (pte.getLsbD 4) k with
    | some sub => accessF sub
    | none => s.xplace (pteAddr pte + va.toNat % 2 ^ pageBits lvl)

/-- Translation of table space by a range entry. -/
def State.useRange (s : State) (reader : Nat) (e : RangeE) (va : BitVec 64) (k : AKind) (async : Bool) : Xres :=
  match lacks e.r e.w e.at' k with
  | some sub => accessF sub
  | none =>
    if e.repl && k = .atomic then accessF 0x73
    else
      let base := if !e.twin then e.base0 else if async && k = .write then e.shadow else e.face
      let pa := base * 4096 + va.toNat % 2 ^ 56 - e.vbase * 4096
      if e.repl then
        if k = .write then s.xplaces (e.clusters.map (fun c => replicaPa c pa))
        else s.xplace (replicaPa (nearest reader e.clusters (clusterOf (pa / 2 ^ 29 % 512))) pa)
      else s.xplace pa

/-- The cached walk of an address in a Shuttle's TLB (R128). -/
def State.cached (s : State) (cl c page : Nat) : Option Found :=
  (s.tlb.find? (fun t => t.cluster == cl && t.ctx == c && t.page == page)).map (·.found)

/-- Translation for an access by a cluster's tiles or Shuttle: the context, its plot, the address, the kind, and whether
the agent is asynchronous (R118). -/
def State.xlate (s : State) (cl c : Nat) (pl : Option Plot) (va : BitVec 64) (k : AKind) (async : Bool) : Xres :=
  if va.toNat / 2 ^ 57 != 0 then xlateF 0x64
  else if va.getLsbD 56 then s.plotSpad pl va
  else
    match rangeOf (s.ctx c).active va with
    | some (_, e) => s.useRange cl e va k async
    | none =>
      if (s.ctx c).ptActive = 0 then xlateF 0x60
      else match s.cached cl c (va.toNat / 2 ^ 19) with
        | some f => s.useFound f va k
        | none => .miss (va.toNat / 2 ^ 19)
/-- Translation with the walk made in the same step: by the Loom, which has no TLB, and where only the result counts. -/
def State.xlateNow (s : State) (cl c : Nat) (pl : Option Plot) (va : BitVec 64) (k : AKind) (async : Bool) : Xres :=
  match s.xlate cl c pl va k async with
  | .miss _ => s.useFound (s.walk c va) va k
  | r => r

/-- A missing page asked for; a miss on a page that is being walked on the die joins that walk (R128). -/
def State.askWalk (s : State) (cl c page : Nat) : State :=
  let die := cl / 16
  if s.walks.any (fun w => w.die == die && w.ctx == c && w.page == page) then
    { s with walks := s.walks.map (fun w =>
        if w.die == die && w.ctx == c && w.page == page && !w.clusters.contains cl
        then { w with clusters := w.clusters ++ [cl] } else w) }
  else { s with walks := s.walks ++ [⟨die, c, page, [cl]⟩] }
/-- PAGE_WALK_COMPLETE: the oldest walk of a die ends, and every Shuttle that waits for it caches the result; a TLB
holds 2,048 entries (R128) (DEDUCED, log entry 20). -/
def State.walkComplete (s : State) (die : Nat) : State :=
  match s.walks.find? (fun w => w.die == die) with
  | none => s
  | some w =>
    let f := s.walk w.ctx (BitVec.ofNat 64 (w.page * 2 ^ 19))
    { s.charge w.ctx 8 with
             walks := s.walks.filter (· != w)
             tlb := w.clusters.foldl (fun l cl =>
               let rest := l.filter (fun t => !(t.cluster == cl && t.ctx == w.ctx && t.page == w.page))
               let mine := rest.filter (fun t => t.cluster == cl)
               let rest := if 2048 ≤ mine.length then rest.filter (fun t => some t != mine.getLast?) else rest
               ⟨cl, w.ctx, w.page, f⟩ :: rest) s.tlb }

/-! ### Accesses of dynamic work to scratchpads -/

/-- A fault that dynamic work meets: cause, the sub-code of the fault record (R131), and WP of a RACE. -/
abbrev MemFault := BitVec 8 × Nat × Nat

/-- The party of an access: a tile of this module, or one that another module holds for a plot, and its logical
coordinates in its plot (09 R163). -/
structure Party where
  tile : Option Nat
  plot : Option Nat
  lx : Nat
  ly : Nat
deriving DecidableEq, Repr
/-- Tile m as a party. -/
def State.who (s : State) (m : Nat) : Party := ⟨some m, (s.tile m).plot, (s.tile m).lx, (s.tile m).ly⟩
/-- The window check of an access by a party (none: the Loom's channel) to bytes of tile n (09 R163, R497). -/
def State.dynWindow (s : State) (m : Option Party) (n a len : Nat) : Option MemFault :=
  let t := s.tile n
  if m.bind (·.tile) = some n || (m = none && t.plot = none) then none
  else
    let member (w : Win) : Bool := match m, s.plotOf n with
      | some m, some pl => m.plot == t.plot && (instOf pl t.lx t.ly (t.bar w.bar)).has m.lx m.ly
      | _, _ => false
    match (gransOf a len).findSome? (fun g => match t.window (64 * g) with
      | none => some 0x74
      | some w => if !w.shared then some 0x74 else if member w then none else some 0x75), m with
    | some sub, _ => some (0x11, sub, 0)
    | none, none => some (0x11, 0x75, 0)
    | none, some _ => none
/-- The tags after an access by a party to bytes of tile n, or its fault: the window check, an uncorrectable error of a
read, the claim (09 R152, R163, R166; DEDUCED, log entry 11). -/
def State.dynClaim (s : State) (m : Option Party) (n a len : Nat) (k : Claim) (reads : Bool) :
    Except MemFault (Store 11) :=
  match s.dynWindow m n a len with
  | some f => .error f
  | none =>
    if reads && s.memErr (spadBase n + a) len then .error (0x0E, 0x50, 0)
    else match m with
      | none => .ok (s.tile n).tags
      | some m => match s.claimAt n m.lx m.ly k (gransOf a len) with
        | .ok tags => .ok tags
        | .error (sub, _, wp) => .error (0x0F, sub - 0x80, wp)

/-- A read of memory by dynamic work: the bytes with the claim made, or the fault (09 R152, R166; DEDUCED, log entry 11
for an uncorrectable column of a service stratum). -/
def State.dynRead (s : State) (m : Option Party) (pa len : Nat) : Except MemFault (List Byte × State) :=
  match spadOf pa with
  | some (n, a) =>
    match s.dynClaim m n a len .read true with
    | .ok tags => .ok (Memory.read s.mem pa len, (s.mapTile n (fun t => { t with tags := tags })).correctIn pa len)
    | .error f => .error f
  | none =>
    if s.memErr pa len then .error (0x0E, 0x50, 0) else .ok (Memory.read s.mem pa len, s.correctIn pa len)
/-- A write of memory by dynamic work; reads says that the access is an atomic, which reads its bytes first. -/
def State.dynWrite (s : State) (m : Option Party) (pa : Nat) (b : List Byte) (k : Claim) (reads : Bool := false) :
    Except MemFault State :=
  match spadOf pa with
  | some (n, a) =>
    match s.dynClaim m n a b.length k reads with
    | .ok tags => .ok ((s.memWrite pa b).mapTile n (fun t => { t with tags := tags }))
    | .error f => .error f
  | none => if reads && s.memErr pa b.length then .error (0x0E, 0x50, 0) else .ok (s.memWrite pa b)

/-- A local atomic has read bytes of a span and not yet written: no other write comes between (09 R160). -/
def Tile.inAtomic (t : Tile) (a len : Nat) : Bool :=
  t.pend.any (fun p => match p.act with
    | .spadWr b bytes false => b < a + len && a < b + bytes.length
    | _ => false)
/-- The side port serves an access to bytes of a scratchpad in this sc: every side it needs is free of static
reservations and of other dynamic accesses (09 R158) (DEDUCED, log entry 29). -/
def State.sideFree (s : State) (pa len : Nat) (write atomic : Bool) : Bool :=
  match spadOf pa with
  | none => true
  | some (n, a) =>
    let now := s.now n
    let rs := (s.tile n).ports
    let paused := match s.plotOf n with | some pl => pl.st != .running | none => true
    let busy (sc : Nat) (side : Side) (bank : Nat) : Bool :=
      (findSide rs sc side bank).isSome || (s.tile n).dynUse.contains (sc, side, bank)
    !((write || atomic) && (s.tile n).inAtomic a len) && (paused || (gransOf a len).all (fun g =>
      if atomic then !busy now .dataRead (g % 48) && !busy (now + 1) .dataWrite (g % 48) &&
        !busy (now + 1) .parWrite (g % 12)
      else if write then !busy now .dataWrite (g % 48) && !busy now .parWrite (g % 12)
      else !busy now .dataRead (g % 48)))
/-- The sides that a dynamic access takes in sc u (09 R158). -/
def sidesOf (u g : Nat) (write atomic : Bool) : List (Nat × Side × Nat) :=
  if atomic then [(u, .dataRead, g % 48), (u + 1, .dataWrite, g % 48), (u + 1, .parWrite, g % 12)]
  else if write then [(u, .dataWrite, g % 48), (u, .parWrite, g % 12)]
  else [(u, .dataRead, g % 48)]

/-- A timetable whose save area is in use: it has not completed and is not torn down (27 R442). -/
def Plot.unfinished (pl : Plot) : Bool := !(pl.st = .done || pl.st = .faulted)
/-- The header of a plot's save area: at the context's offset in the service stratum, of the tile that runs its rank 0, that
holds its slot there (27 R442; DESIGN CHOICE, log entry 39). -/
def State.headerAt (s : State) (pl : Plot) : Nat :=
  let n := pl.tileAt pl.lx0 pl.ly0
  let off := (s.ctx pl.ctx).savePa
  match afind pl.slots n with
  | some (st, _) => n * 2 ^ 29 + st * 2 ^ 27 + off % 2 ^ 27
  | none => off
/-- The header of a context's save area: that of the first of its timetables in use. -/
def State.headerPa (s : State) (c : Nat) : Nat :=
  match s.plots.find? (fun p => p.2.unfinished && p.2.ctx = c) with
  | some p => s.headerAt p.2
  | none => (s.ctx c).savePa
/-- The fault record of a context filled, or its count of later faults raised (R131); sb47 (48) stands there as 47. -/
def State.recordFault (s : State) (c : Nat) (addr lx ly : Nat) (copy : BitVec 32) (va : BitVec 64) (f : MemFault)
    (bar agent : Nat) : State :=
  let pa := s.headerPa c
  let old := leNat (Memory.read s.mem pa 64)
  if old / 2 ^ 63 % 2 = 1 then
    let later := old % 2 ^ 32
    if later < 2 ^ 32 - 1 then s.memWrite pa (leBytes 4 (later + 1)) else s
  else
    s.memWrite pa (leBytes 64 (addr % 2 ^ 24 * 2 ^ 192 + ly * 2 ^ 181 + lx * 2 ^ 175 + copy.toNat * 2 ^ 128 +
      va.toNat % 2 ^ 57 * 2 ^ 64 + 2 ^ 63 + f.2.1 * 2 ^ 56 + f.1.toNat * 2 ^ 48 + Nat.min bar 47 * 2 ^ 42 + agent * 2 ^ 32))

end Sys2Proof.Machine
end

