-- ==== Sys2Proof/Machine/Memory.lean ====
section
/-! DEFINITION. Issuing the M operations (10_memory_instructions.md, 08_shuttle_commands.md): their address rules, the
static accesses, the dynamic accesses and the Shuttle's commands. -/
namespace Sys2Proof.Machine

/-! ### Addresses (R178, R179) -/

/-- The scratchpad address of a static operation, exact. -/
def Tile.ea (t : Tile) (m : MAddr) : Nat := (t.rs m.sa).toNat + m.off.toNat
/-- The virtual address of a dynamic operation. -/
def Tile.va (t : Tile) (m : MAddr) : BitVec 64 := t.rs m.sa + m.off.signExtend 64
/-- ALIGNF unless a scratchpad address obeys R178. -/
def needSpad (e : Env) (a align span : Nat) : Except Trap Unit := need (spadOk a align span) (alignf e.slot a)

/-- The bytes a span of a view holds: 64 for a column view, else 256 (R178, R181). -/
def viewSpan : View → Nat
  | .col _ _ => 64
  | _ => 256

/-- A static read of a span at the issue sc: ports reserved, errors and claims taken, the bytes (R153, R168). -/
def readNow (a span : Nat) (s : State) : Except Trap (List Byte × State) :=
  let e := s.env
  match reserve e (portsOf e.now false a span) (s.tile e.n) with
  | .error tr => .error tr
  | .ok t => (issueClaim .read a span (s.setTile e.n t)).map (fun s' => (s'.spadRead e.n a span, s'))

/-- A scalar destination as a pending effect writes it. -/
def Tile.target (t : Tile) (r : BitVec 6) : Bool × Nat :=
  match t.wScalar r 0 with
  | .scalar sup n _ => (sup, n)
  | _ => (false, r.toNat)

/-! ### Vector and scalar moves (R181, R182) -/

def issueLdv (v : View) (m : MAddr) : Issue := fun s => do
  let e := s.env
  let a := (s.tile e.n).ea m
  needSpad e a 64 (viewSpan v)
  let (b, s) ← readNow a (viewSpan v) s
  .ok (s.mapTile e.n (Tile.pushAll e (e.now + 8) (viewWrite v allLanes (rowOfBytes b))))

/-- A static store of bytes at port sc t + k. -/
def storeAt (k a : Nat) (b : List Byte) : Issue := onTile fun e t =>
  match reserve e (portsOf (e.now + k) true a b.length) t with
  | .error tr => .error tr
  | .ok t => .ok (t.push e (e.now + k) (.spadWr a b true))

def issueStv (v : View) (m : MAddr) : Issue := fun s => do
  let e := s.env
  let t := s.tile e.n
  needSpad e (t.ea m) 64 (viewSpan v)
  storeAt 4 (t.ea m) ((rowBytes (t.view v)).take (viewSpan v)) s

def Size.bytes : Size → Nat
  | .b8 => 1
  | .b16 => 2
  | .b32 => 4
  | .b64 => 8

def issueLds (sx : Bool) (size : Size) (sb : BitVec 6) (m : MAddr) : Issue := fun s => do
  let e := s.env
  let n := Size.bytes size
  let a := (s.tile e.n).ea m
  needSpad e a n n
  let (b, s) ← readNow a n s
  let x : BitVec 64 := if sx then BitVec.ofInt 64 (intVal (8 * n) true (leNat b)) else BitVec.ofNat 64 (leNat b)
  .ok (s.mapTile e.n (fun t => t.push e (e.now + 6) (t.wScalar sb x)))

def issueSts (size : Size) (sb : BitVec 6) (m : MAddr) : Issue := fun s => do
  let e := s.env
  let t := s.tile e.n
  let n := Size.bytes size
  needSpad e (t.ea m) n n
  storeAt 4 (t.ea m) (leBytes n (t.rs sb).toNat) s

/-! ### Gather and scatter (R183) -/

/-- The lanes that are not null with their addresses (R183). -/
def Tile.lanes (t : Tile) (r ea : Nat) : List (Nat × Nat) :=
  let idx := t.vrow (r + 1)
  (List.range 64).filterMap (fun j =>
    let x := rowCell idx j
    if x < 2 ^ 31 then some (j, ea + 4 * x) else none)
/-- The row of a gather or scatter, or the reason it is refused (R177). -/
def gatherRow (e : Env) (v : View) : Except Trap Nat :=
  match viewRow v with
  | some r => if r % 2 = 0 && r + 1 < 16 * e.panels then .ok r else .error (rescombo 3 e.slot)
  | none => .error (rescombo 3 e.slot)
/-- ALIGNF of the lowest failing lane (R178, R179). -/
def needLanes (e : Env) (ls : List (Nat × Nat)) : Except Trap Unit :=
  match ls.find? (fun l => !spadOk l.2 4 4) with
  | some l => .error (alignf e.slot l.2)
  | none => .ok ()
/-- The accesses of the lanes, one granule of an sc once. -/
def lanePorts (first : Nat) (write : Bool) (ls : List (Nat × Nat)) : List Port :=
  (List.range 4).flatMap (fun q =>
    (((ls.filter (fun l => l.1 / 16 == q)).map (fun l => l.2 / 64)).eraseDups).map (fun g => ⟨first + q, write, g⟩))

def issueLdg (v : View) (m : MAddr) : Issue := onTile fun e t => do
  let r ← gatherRow e v
  let ls := t.lanes r (t.ea m)
  needLanes e ls
  let t ← reserve e (lanePorts (e.now + 1) false ls) t
  let null := maskOf (fun j => !(ls.any (fun l => l.1 == j)))
  let t := (List.range 4).foldl (fun t q =>
    let mine := ls.filter (fun l => l.1 / 16 == q)
    if mine = [] then t else t.push e (e.now + 1 + q) (.gather r mine)) t
  .ok (t.push e (e.now + 12) (.cells r null 0))

def issueStg (v : View) (m : MAddr) : Issue := onTile fun e t => do
  let r ← gatherRow e v
  let ls := t.lanes r (t.ea m)
  needLanes e ls
  let t' ← reserve e (lanePorts (e.now + 5) true ls) t
  .ok (ls.foldl (fun t' l =>
    t'.push e (e.now + 5 + l.1 / 16) (.spadWr l.2 (leBytes 4 (rowCell (t.vrow r) l.1)) true)) t')

/-! ### Direction loads and stores (R184) -/

/-- The members of a group as stored. -/
def memberPorts (first : Nat) (write : Bool) (k a : Nat) : List Port :=
  (List.range k).flatMap (fun i => portsOf (first + i) write (a + 256 * i) 256)
/-- The end of an LDD, its k members read by sc t + k - 1: renorm of the stored components with L = 0 (R184). -/
def lddFinish (t : Tile) (seq addr slot issue d : Nat) (rows : List Row) : Tile :=
  let k := rows.length
  let u := rows.flatMap (fun r => (List.range 128).map (fun i => q15Val (rowElem r 16 i)))
  let r := renorm u (-15) 0
  let put (t : Tile) (due : Nat) (as : List Act) : Tile := as.foldl (fun t a => t.pushAs seq addr slot due a) t
  put (put t (issue + 10 + 2 * k) (writeComps d k r.1)) (issue + 12 + 2 * k)
    (writeNorm d k r.2.1 ++ [.flags r.2.2])

def issueLdd (g : Grp) (d : BitVec 6) (m : MAddr) : Issue := fun s => do
  let e := s.env
  let k := g.size
  let a := (s.tile e.n).ea m
  needSpad e a 64 (256 * k)
  let t ← reserve e (memberPorts e.now false k a) (s.tile e.n)
  let s ← issueClaim .read a 256 (s.setTile e.n t)
  let row := rowOfBytes (s.spadRead e.n a 256)
  .ok (s.mapTile e.n (fun t =>
    if k = 1 then lddFinish t t.seqNo e.addr e.slot e.now d.toNat [row]
    else t.push e (e.now + 1) (.lddRead d.toNat k 1 a [row])))

def issueStd (g : Grp) (d : BitVec 6) (m : MAddr) : Issue := onTile fun e t => do
  let k := g.size
  let a := t.ea m
  needSpad e a 64 (256 * k)
  let t' ← reserve e (memberPorts (e.now + 4) true k a) t
  .ok ((List.range k).foldl (fun t' i =>
    t'.push e (e.now + 4 + i) (.spadWr (a + 256 * i) (rowBytes (t.comps (d.toNat + i))) true)) t')

/-! ### Loading the weight buffer (R185) -/

def issueLdwb (h : Bool) (sb sc : BitVec 6) (m : MAddr) : Issue := onTile fun e t => do
  let n := (t.rs sb).toNat
  let o := (t.rs sc).toNat
  need (n != 0 && n ≤ 1024 && o + n ≤ 1024) (rescombo 3 e.slot)
  let a := t.ea m
  needSpad e a 64 (64 * n)
  let used := if h then Nat.max t.mx.load1 t.mx.half1 else Nat.max t.mx.load0 t.mx.half0
  need (used ≤ e.now) (busy 0x42 0)
  let t ← reserve e ((List.range n).map (fun j => ⟨e.now + 1 + j / 4, false, a / 64 + j⟩)) t
  let done := e.now + 1 + (n + 3) / 4
  let t := (t.push e (e.now + 1) (.ldwbRead h a o n 0)).push e done (.ldwbDone h)
  .ok { t with mx := if h then { t.mx with load1 := done } else { t.mx with load0 := done } }

/-! ### Bank atomics (09 R160, R186) -/

/-- The new value of an atomic of width w on old, x and cmp, and its flags (R160, R161). -/
def atomNew (op : AtOp) (w old x cmp : Nat) : Nat × Flags :=
  let sgn (v : Nat) := intVal w true v
  match op with
  | .add => ((old + x) % 2 ^ w, fNone)
  | .fadd =>
    let r := addNum false (elemValue .f32 old) (elemValue .f32 x)
    let q := roundFmt fp32 .rne false 0 r.1
    (q.1, r.2 ||| q.2)
  | .min => (if sgn x < sgn old then x else old, fNone)
  | .max => (if sgn old < sgn x then x else old, fNone)
  | .minu => (Nat.min old x, fNone)
  | .maxu => (Nat.max old x, fNone)
  | .and => (old &&& x, fNone)
  | .or => (old ||| x, fNone)
  | .xor => (old ^^^ x, fNone)
  | .xch => (x, fNone)
  | .cas => (if old = cmp then x else old, fNone)

/-- A local atomic: operands at issue, read at t + 4, write at t + 5 (R186). -/
def localAtom (op : AtOp) (w64 : Bool) (sb sc : BitVec 6) (m : MAddr) : Issue := onTile fun e t => do
  need (!(op = .fadd && w64)) (rescombo 0 e.slot)
  let n := if w64 then 8 else 4
  let a := t.ea m
  needSpad e a n n
  let t' ← reserve e [⟨e.now + 4, false, a / 64⟩, ⟨e.now + 5, true, a / 64⟩] t
  let r := t.target sb
  let lim (x : BitVec 64) : BitVec 64 := if w64 then x else x &&& 0xFFFFFFFF
  .ok ((t'.push e (e.now + 4) (.atomClaim a n)).push e (e.now + 4)
    (.atomRead op w64 a (lim (t.rs sc)) (lim (t.rs sb)) r.1 r.2))

def issueAadd (w64 : Bool) (sb sc : BitVec 6) (m : MAddr) : Issue := localAtom .add w64 sb sc m
def issueAfadd (w64 : Bool) (sb sc : BitVec 6) (m : MAddr) : Issue := localAtom .fadd w64 sb sc m
def issueAmin (w64 : Bool) (sb sc : BitVec 6) (m : MAddr) : Issue := localAtom .min w64 sb sc m
def issueAmax (w64 : Bool) (sb sc : BitVec 6) (m : MAddr) : Issue := localAtom .max w64 sb sc m
def issueAminu (w64 : Bool) (sb sc : BitVec 6) (m : MAddr) : Issue := localAtom .minu w64 sb sc m
def issueAmaxu (w64 : Bool) (sb sc : BitVec 6) (m : MAddr) : Issue := localAtom .maxu w64 sb sc m
def issueAand (w64 : Bool) (sb sc : BitVec 6) (m : MAddr) : Issue := localAtom .and w64 sb sc m
def issueAor (w64 : Bool) (sb sc : BitVec 6) (m : MAddr) : Issue := localAtom .or w64 sb sc m
def issueAxor (w64 : Bool) (sb sc : BitVec 6) (m : MAddr) : Issue := localAtom .xor w64 sb sc m
def issueAxch (w64 : Bool) (sb sc : BitVec 6) (m : MAddr) : Issue := localAtom .xch w64 sb sc m
def issueAcas (w64 : Bool) (sb sc : BitVec 6) (m : MAddr) : Issue := localAtom .cas w64 sb sc m

/-! ### Dynamic accesses (R187-R190) -/

/-- A dynamic access made, with the next number. -/
def Tile.addDyn (t : Tile) (e : Env) (k : DynKind) (va : BitVec 64) (loc : Nat) (bar : BitVec 6) (order : Option Scope)
    (x cmp : BitVec 64) : Tile :=
  { t with
    dyn := t.dyn ++ [{ id := t.dynNo, kind := k, va := va, loc := loc, bar := t.barOf bar, sc := e.now, addr := e.addr,
                       slot := e.slot, order := order, data := none, x := x, cmp := cmp, served := false,
                       flags := fNone, fault := none }],
    dynNo := t.dynNo + 1 }
/-- BUSY 0x41 at the 65th access (R188). -/
def needDyn (t : Tile) : Except Trap Unit := need (t.dyn.length < 64) (busy 0x41 0)

/-- A remote atomic: its parameter granule is read at issue (R187). -/
def remoteAtom (op : AtOp) (w64 : Bool) (sb bar : BitVec 6) (m : MAddr) : Issue := fun s => do
  let e := s.env
  let t := s.tile e.n
  need (!(op = .fadd && w64)) (rescombo 0 e.slot)
  let p := (t.rs sb).toNat
  let va := t.va m
  needSpad e p 64 64
  need (va.toNat % (if w64 then 8 else 4) = 0) (alignf e.slot va.toNat)
  needDyn t
  let (b, s) ← readNow p 64 s
  let n := if w64 then 8 else 4
  .ok (s.mapTile e.n (fun t => t.addDyn e (.atom op w64) va p bar none (BitVec.ofNat 64 (leNat (b.take n)))
    (BitVec.ofNat 64 (leNat ((b.drop 8).take n)))))

def issueAaddRem (w64 : Bool) (sb bar : BitVec 6) (m : MAddr) : Issue := remoteAtom .add w64 sb bar m
def issueAfaddRem (w64 : Bool) (sb bar : BitVec 6) (m : MAddr) : Issue := remoteAtom .fadd w64 sb bar m
def issueAminRem (w64 : Bool) (sb bar : BitVec 6) (m : MAddr) : Issue := remoteAtom .min w64 sb bar m
def issueAmaxRem (w64 : Bool) (sb bar : BitVec 6) (m : MAddr) : Issue := remoteAtom .max w64 sb bar m
def issueAminuRem (w64 : Bool) (sb bar : BitVec 6) (m : MAddr) : Issue := remoteAtom .minu w64 sb bar m
def issueAmaxuRem (w64 : Bool) (sb bar : BitVec 6) (m : MAddr) : Issue := remoteAtom .maxu w64 sb bar m
def issueAandRem (w64 : Bool) (sb bar : BitVec 6) (m : MAddr) : Issue := remoteAtom .and w64 sb bar m
def issueAorRem (w64 : Bool) (sb bar : BitVec 6) (m : MAddr) : Issue := remoteAtom .or w64 sb bar m
def issueAxorRem (w64 : Bool) (sb bar : BitVec 6) (m : MAddr) : Issue := remoteAtom .xor w64 sb bar m
def issueAxchRem (w64 : Bool) (sb bar : BitVec 6) (m : MAddr) : Issue := remoteAtom .xch w64 sb bar m
def issueAcasRem (w64 : Bool) (sb bar : BitVec 6) (m : MAddr) : Issue := remoteAtom .cas w64 sb bar m

def issueLdr (acq : Option Scope) (sb bar : BitVec 6) (m : MAddr) : Issue := onTile fun e t => do
  let p := (t.rs sb).toNat
  let va := t.va m
  needSpad e p 64 64
  need (va.toNat % 64 = 0) (alignf e.slot va.toNat)
  needDyn t
  .ok (t.addDyn e .ldr va p bar acq 0 0)

def issueStr (rel : Option Scope) (sb bar : BitVec 6) (m : MAddr) : Issue := onTile fun e t => do
  let p := (t.rs sb).toNat
  let va := t.va m
  needSpad e p 64 64
  need (va.toNat % 64 = 0) (alignf e.slot va.toNat)
  needDyn t
  let t ← reserve e (portsOf (e.now + 4) false p 64) t
  .ok ((t.push e (e.now + 4) (.strRead t.dynNo p)).addDyn e .str va p bar rel 0 0)

/-! ### The copy descriptor (08 R135, R136) -/

def descField (d : BitVec 512) (lo n : Nat) : Nat := d.toNat / 2 ^ lo % 2 ^ n
def descSigned (d : BitVec 512) (lo n : Nat) : Int := intVal n true (descField d lo n)
def descCvt (d : BitVec 512) : Bool := d.getLsbD 351
def descSfmt (d : BitVec 512) : Fmt := fmtGet (descField d 352 5)
def descDfmt (d : BitVec 512) : Fmt := fmtGet (descField d 357 5)
/-- Bytes of an element at the source and at the destination (R138). -/
def descSsize (d : BitVec 512) : Nat := if descCvt d then fmtWidth (descSfmt d) / 8 else 1
def descDsize (d : BitVec 512) : Nat := if descCvt d then fmtWidth (descDfmt d) / 8 else 1
def descLen (d : BitVec 512) : Nat := descField d 128 24
def descCnt1 (d : BitVec 512) : Nat := descField d 152 16 + 1
def descCnt2 (d : BitVec 512) : Nat := descField d 168 16 + 1
def descBar (d : BitVec 512) : Nat := descField d 368 6
def descPrio (d : BitVec 512) : Nat := descField d 366 2
def descTag (d : BitVec 512) : Nat := descField d 384 32
/-- Elements of the copy and its destination bytes. -/
def descTotal (d : BitVec 512) : Nat := descLen d * descCnt1 d * descCnt2 d
def descBytes (d : BitVec 512) : Nat := descTotal d * descDsize d

/-- The field checks of R136, with whether BAR must be zero (24 R411) (DEDUCED, log entry 22). -/
def descCheck (d : BitVec 512) (slot : Nat) (loom : Bool) : Option Trap :=
  let sf := descField d 352 5
  let df := descField d 357 5
  let rm := descField d 362 3
  let dims := descField d 374 2
  let hi1 := descField d 152 16 != 0 || descField d 192 40 != 0 || descField d 272 40 != 0
  let hi2 := descField d 168 16 != 0 || descField d 232 40 != 0 || descField d 312 39 != 0
  let cvt := descCvt d
  if descField d 416 96 != 0 || descField d 376 8 != 0 || descField d 184 8 != 0 || rm == 7 ||
     (loom && descBar d != 0) then some (undef 1 slot)
  else if 48 ≤ descBar d then some (undef 2 slot)
  else if (fmtOf sf).isNone || (fmtOf df).isNone then some (undef 3 slot)
  else if !cvt && (sf != 0 || df != 0 || rm != 0 || d.getLsbD 365) then some (rescombo 0 slot)
  else if cvt && (4 < sf || 4 < df || sf == df || rm == 5) then some (rescombo 1 slot)
  else if dims == 3 || descLen d == 0 || (dims < 1 && hi1) || (dims < 2 && hi2) || 2 ^ 32 ≤ descBytes d then
    some (rescombo 3 slot)
  else if cvt then
    ([(descField d 0 64, descSsize d), (descField d 64 64, descDsize d), (descField d 192 40, descSsize d),
      (descField d 232 40, descSsize d), (descField d 272 40, descDsize d), (descField d 312 39, descDsize d)].find?
      (fun p => p.1 % p.2 != 0)).map (fun p => alignf slot p.1)
  else none

/-! ### The Shuttle's commands (08 R137-R147) -/

/-- Copies of a tile that have not ended. -/
def State.copiesOf (s : State) (n : Nat) : List Copy := (s.cluster (clusterOf n)).copies.filter (fun c => c.tile == some n)

/-- A copy put into a Shuttle's queue. -/
def State.addCopy (s : State) (cl : Nat) (c : Copy) : State :=
  s.mapCluster cl (fun k => { k with copies := k.copies ++ [{ c with age := k.copyAge }], copyAge := k.copyAge + 1 })

/-- The id of a tile's next copy (R137). -/
def copyId (s : State) (n : Nat) : Nat × BitVec 32 :=
  let t := s.tile n
  let k := if t.shcpy = 0x1FFFFF then 1 else t.shcpy + 1
  let w := match s.plotOf n with | some pl => pl.w | none => 1
  (k, BitVec.ofNat 32 ((t.ly * w + t.lx) * 2 ^ 21 + k))

def issueShcpy (sb : BitVec 6) (m : MAddr) : Issue := fun s => do
  let e := s.env
  let t := s.tile e.n
  let a := (t.rs sb).toNat + m.off.toNat
  needSpad e a 64 64
  let d : BitVec 512 := BitVec.ofNat 512 (leNat (s.spadRead e.n a 64))
  match descCheck d e.slot false with
  | some tr => .error tr
  | none =>
    need ((s.copiesOf e.n).length < 16) (busy 0x40 0)
    let (_, s) ← readNow a 64 s
    let (k, id) := copyId s e.n
    let s := s.mapTile e.n (fun t =>
      ({ t with shcpy := k }).push e (e.now + 2) (t.wScalar m.sa (BitVec.setWidth 64 id)))
    .ok (s.addCopy (clusterOf e.n)
      { id := id, ctx := s.ctxOf e.n, tile := some e.n, lx := t.lx, ly := t.ly, addr := e.addr, slot := e.slot,
        sc := e.now, desc := d, bar := t.barOf (BitVec.ofNat 6 (descBar d)), rm := t.rmFixed (rmGet (descField d 362 3)), age := 0, next := 0, beats := [],
        written := 0, cancelled := false, faulted := false, suspended := false, flags := fNone, q := 0, qseq := 0,
        node := none, cause := 0 })

def issuePubl (bar : BitVec 6) (sc : Scope) (m : MAddr) : Issue := fun s =>
  let e := s.env
  let t := s.tile e.n
  let w := match s.plotOf e.n with | some pl => pl.w | none => 1
  .ok (s.mapCtx (s.ctxOf e.n) (fun c => { c with pubs := c.pubs ++ [⟨t.va m, sc, t.barOf bar, e.n, e.now, e.addr,
    t.ly * w + t.lx, t.lx, t.ly, t.dynNo⟩] }))

/-- The copy of an id among the copies of the issuing context and plot (R145). -/
def State.findCopy (s : State) (n : Nat) (id : BitVec 32) : Option (Nat × Copy) :=
  (List.range 32).findSome? (fun cl => ((s.cluster cl).copies.find? (fun c =>
    c.id == id && c.ctx == s.ctxOf n && (match c.tile with
      | some m => (s.tile m).plot == (s.tile n).plot
      | none => false))).map (fun c => (cl, c)))

def issueShcan (sa : BitVec 6) : Issue := fun s =>
  let e := s.env
  let x := (s.tile e.n).rs sa
  match (if x.toNat < 2 ^ 32 then s.findCopy e.n (x.setWidth 32) else none) with
  | some (cl, c) => .ok (s.mapCluster cl (fun k =>
      { k with copies := k.copies.map (fun q => if q = c then { q with cancelled := true } else q) }))
  | none => .ok s

/-- The value SHQRY returns (R147). -/
def Copy.status (c : Copy) : BitVec 64 :=
  let st := if c.cancelled || c.faulted then 3 else if c.next = 0 then 1 else 2
  BitVec.ofNat 64 (st * 2 ^ 62 + descBar c.desc * 2 ^ 56 + descPrio c.desc * 2 ^ 54 + c.written)

def issueShqry (sa sb : BitVec 6) : Issue := fun s =>
  let e := s.env
  let x := (s.tile e.n).rs sb
  let r := match (if x.toNat < 2 ^ 32 then s.findCopy e.n (x.setWidth 32) else none) with
    | some (_, c) => c.status
    | none => 0
  .ok (s.mapTile e.n (fun t => t.push e (e.now + 6) (t.wScalar sa r)))

end Sys2Proof.Machine
end

