-- ==== Sys2Proof/Machine/Stream.lean ====
section
/-! DEFINITION. Mesh streams: hops, the values under way, taps and their stamps, and issuing the N operations
(11 R204-R215, 01 R17-R18). -/
namespace Sys2Proof.Machine

/-! ### Hops (R204, R205) -/

/-- The neighbour of a tile in a direction, on the module. -/
def Model.neighbour (m : Model) (n : Nat) (d : Dir) : Option Nat :=
  let x := tileX n
  let y := tileY n
  match d with
  | .east => if x + 1 < m.width then some (tileIdx (x + 1) y) else none
  | .west => if 0 < x then some (tileIdx (x - 1) y) else none
  | .north => if y + 1 < 16 then some (tileIdx x (y + 1)) else none
  | .south => if 0 < y then some (tileIdx x (y - 1)) else none
/-- A hop over the die seam, which lies between x = 15 and x = 16; a D24 has none (R205, 00 R1). -/
def Model.seamHop (m : Model) (n : Nat) (d : Dir) : Bool :=
  m != .d24 && ((d = .east && tileX n = 15) || (d = .west && tileX n = 16))
/-- The link whose edge tile a tile is, with the direction that leaves the module there (01 R19, 11 R205). -/
def Model.edgeLink (m : Model) (n : Nat) (d : Dir) : Option Nat :=
  let links : List (Nat × Nat × Nat × Dir) := [(0, 0, 4, .west), (1, 0, 8, .west), (2, 4, 15, .north), (3, 8, 15, .north),
    (4, 4, 0, .south), (5, 8, 0, .south), (6, 31, 4, .east), (7, 31, 8, .east), (8, 20, 15, .north), (9, 24, 15, .north),
    (10, 20, 0, .south), (11, 24, 0, .south)]
  (links.find? (fun l => l.1 < m.links && tileX n = l.2.1 && tileY n = l.2.2.1 && d = l.2.2.2)).map (·.1)
/-- The link whose stream lane a drive leaves the module on: lane 0 at the link's edge tile, where the lane is usable
(R205, 30 R486). -/
def State.laneLink (s : State) (n : Nat) (d : Dir) (lane : Nat) : Option Nat :=
  (s.model.edgeLink n d).filter (fun l => lane = 0 && (s.link l).stream)
/-- The hop time of a lane: a link's stream lane takes 640 sc in place of one hop (R205); a lane that delivers nothing takes the
one sc of a hop (DESIGN CHOICE, log entry 67). -/
def State.hopTime (s : State) (n : Nat) (d : Dir) (lane : Nat) : Nat :=
  if (s.laneLink n d lane).isSome then 640 else if s.model.seamHop n d then 5 else 1
def opposite : Dir → Dir
  | .east => .west
  | .west => .east
  | .north => .south
  | .south => .north

/-- A value driven in the current sc; a lane that leaves the plot delivers nothing, and what a link carries off goes to
another module, as link traffic (R18, R204, R215, 28 R466). -/
def State.drive (s : State) (e : Env) (dir : Dir) (lane : Nat) (data : BitVec 256) (stamp : BitVec 16) (eos : Bool) :
    State :=
  let due := e.now + s.hopTime e.n dir lane
  let s := s.mapTile e.n (fun t => t.push e due .driven)
  let s := if (s.laneLink e.n dir lane).isSome then s.charge (s.ctxOf e.n) 6 else s
  match s.model.neighbour e.n dir with
  | some m =>
    if (s.tile m).plot = (s.tile e.n).plot && (s.tile e.n).plot.isSome then
      s.mapTile m (fun t => { t with inbox := t.inbox ++ [⟨due, dir, lane, data, stamp, eos, false⟩] })
    else s
  | none => s

/-- A value from the peer comes in on the stream lane of a link, at the link's edge tile, where a plot that spans the two
modules holds it: driven 640 sc ago, so that its stamp is of no later sc, whoever drove it first (R18, R205, R210, 30 R486). -/
def State.laneIn (s : State) (n : Nat) (f : Flow) : Bool :=
  (s.laneLink n (opposite f.dir) f.lane).isSome && (match s.plotOf n with
    | some pl => pl.st = .running && 640 ≤ pl.scyc && (65535 ≤ pl.scyc - 640 || f.stamp.toNat ≤ pl.scyc - 640) &&
      (if f.dir = .east || f.dir = .west then 32 < pl.w else 16 < pl.h)
    | none => false)
/-- STREAM_VALUE_ARRIVES: the value is present at the tile's input in its sc (R205). -/
def State.streamArrives (s : State) (n : Nat) (f : Flow) : State :=
  let mine (q : Flow) : Bool := q.due = s.now n && q = { f with due := q.due, present := false }
  let put (l : List Flow) : List Flow :=
    if l.any mine then l.map (fun q => if mine q then { q with present := true } else q)
    else if s.laneIn n f && l.all (fun q => q.due != s.now n || q.dir != f.dir || q.lane != f.lane) then
      l ++ [{ f with due := s.now n, present := true }]
    else l
  s.mapTile n (fun t => { t with inbox := put t.inbox })
/-- The value present on a lane in sc u. -/
def Tile.laneAt (t : Tile) (u : Nat) (d : Dir) (lane : Nat) : Option Flow :=
  t.inbox.find? (fun f => f.due == u && f.dir == d && f.lane == lane && f.present)

/-- SLIP of a stream (R214). -/
def slipStream (sub : Nat) (exp : BitVec 16) (f : Option Flow) (d : Dir) (lane slot : Nat) : Trap :=
  ⟨0x0B, exp ++ (match f with | some f => f.stamp | none => 0) ++ BitVec.ofNat 8 sub ++
    BitVec.ofNat 2 d.code ++ BitVec.ofNat 4 lane ++ (0 : BitVec 14) ++ BitVec.ofNat 4 slot, false⟩

/-- The values of a group, or SLIP of the lowest failing lane (R213). -/
def tapGroup (t : Tile) (u : Nat) (d : Dir) (lane w : Nat) (exp : BitVec 16) (stap : Bool) (slot : Nat) :
    Except Trap (List Flow) :=
  let rec go : Nat → Nat → Option Bool → Except Trap (List Flow)
    | 0, _, _ => .ok []
    | k + 1, i, first =>
      match t.laneAt u d i with
      | none => .error (slipStream 0xA0 exp none d i slot)
      | some f =>
        if f.stamp != exp then .error (slipStream 0xA1 exp (some f) d i slot)
        else if stap && f.eos then .error (slipStream 0xA2 exp (some f) d i slot)
        else if first.getD f.eos != f.eos then .error (slipStream 0xA3 exp (some f) d i slot)
        else (go k (i + 1) (some f.eos)).map (f :: ·)
  go w lane none

/-- The expected stamp (R213). -/
def expStamp (t : Tile) (now : Nat) : Stamp → BitVec 16
  | .abs n => n
  | .reg k n => (t.rs k).setWidth 16 + n
  | .age n => BitVec.ofNat 16 now - n

/-! ### Operands (R206, R207) -/

/-- Lanes of a group. -/
def NGrp.lanes (g : NGrp) : Nat := 2 ^ g.width.toNat

/-- RESCOMBO of R207 for a group, an operand and an out lane. -/
def nCombo (e : Env) (g : NGrp) (o : NOpnd) (out : Option (BitVec 4)) : Except Trap Unit :=
  let w := NGrp.lanes g
  let bad := 16 < g.lane.toNat + w || (match out with | some l => 16 < l.toNat + w | none => false) ||
    (match o with
      | .row (.row r) => w = 16 && 16 * e.panels ≤ r.toNat + 1
      | .row _ => true
      | .none => false
      | _ => 1 < w)
  need (!bad) (rescombo 3 e.slot)

/-- ALIGNF of a scratchpad operand (R207). -/
def nAlign (e : Env) (t : Tile) (o : NOpnd) : Except Trap Unit :=
  match o with
  | .spad r => needSpad e (t.rs r).toNat 32 32
  | _ => .ok ()

/-- Part i of a row operand: eight cells of row r or r + 1. -/
def rowPart (t : Tile) (r i : Nat) : BitVec 256 := (t.vrow (r + i / 8)).extractLsb' (256 * (i % 8)) 256

/-- The parts an operand supplies (R207), the scratchpad's read at the issue sc. -/
def nSource (o : NOpnd) (w : Nat) (s : State) : Except Trap (List (BitVec 256) × State) :=
  let t := s.tile s.env.n
  match o with
  | .row v => .ok ((List.range w).map (rowPart t (viewRowNo v)), s)
  | .scalar r => .ok ([(t.rs r).setWidth 256], s)
  | .spad r => (readNow (t.rs r).toNat 32 s).map (fun p => ([BitVec.ofNat 256 (leNat p.1)], p.2))
  | .none => .ok ([], s)

/-- The sides of a scratchpad destination reserved (R153, R210). -/
def nReserve (o : NOpnd) (s : State) : Except Trap State :=
  let e := s.env
  match o with
  | .spad r => (reserve e (portsOf e.now true ((s.tile e.n).rs r).toNat 32) (s.tile e.n)).map (fun t => s.setTile e.n t)
  | _ => .ok s

/-- Received parts written: a row or scalar at t + 2, a scratchpad in this sc (R209). -/
def nStore (o : NOpnd) (parts : List (BitVec 256)) (s : State) : Except Trap State :=
  let e := s.env
  match o with
  | .row v =>
    let r := viewRowNo v
    let put (t : Tile) (row : Nat) (ps : List (BitVec 256)) : Tile :=
      let k := 8 * ps.length
      t.push e (e.now + 2) (.cells row (maskOf (· < k))
        (BitVec.ofNat 2048 (ps.foldr (fun p acc => p.toNat + 2 ^ 256 * acc) 0)))
    .ok (s.mapTile e.n (fun t =>
      let t := put t r (parts.take 8)
      if 8 < parts.length then put t (r + 1) (parts.drop 8) else t))
  | .scalar r => .ok (s.mapTile e.n (fun t => t.push e (e.now + 2) (t.wScalar r ((parts.headD 0).setWidth 64))))
  | .spad r =>
    let a := ((s.tile e.n).rs r).toNat
    (issueClaim .write a 32 s).map (fun s => s.spadWrite e.n a (leBytes 32 (parts.headD 0).toNat))
  | .none => .ok s

/-! ### Issuing -/

/-- Parts driven on consecutive lanes. -/
def driveAll (dir : Dir) (lane : Nat) (stamp : BitVec 16) (eos : Bool) (parts : List (BitVec 256)) (s : State) : State :=
  (parts.zip (List.range parts.length)).foldl (fun s p => s.drive s.env dir (lane + p.2) p.1 stamp eos) s

def issueSdrv (g : NGrp) (o : NOpnd) : Issue := fun s => do
  let e := s.env
  nCombo e g o none
  nAlign e (s.tile e.n) o
  let (parts, s) ← nSource o (NGrp.lanes g) s
  .ok (driveAll g.dir g.lane.toNat (BitVec.ofNat 16 e.now) false parts s)

def issueSeos (g : NGrp) : Issue := fun s => do
  let e := s.env
  nCombo e g .none none
  .ok (driveAll g.dir g.lane.toNat (BitVec.ofNat 16 e.now) true (List.replicate (NGrp.lanes g) 0) s)

def issueStap (g : NGrp) (o : NOpnd) (st : Stamp) : Issue := fun s => do
  let e := s.env
  let t := s.tile e.n
  nCombo e g o none
  nAlign e t o
  let fs ← tapGroup t e.now g.dir g.lane.toNat (NGrp.lanes g) (expStamp t e.now st) true 13
  let s ← nReserve o s
  nStore o (fs.map (·.data)) s

/-- Received values re-driven unchanged (R210). -/
def redrive (dir : Dir) (lane : Nat) (fs : List Flow) (s : State) : State :=
  (fs.zip (List.range fs.length)).foldl (fun s p => s.drive s.env dir (lane + p.2) p.1.data p.1.stamp p.1.eos) s

def issueSfwd (g : NGrp) (o : NOpnd) (st : Stamp) (odir : Dir) (olane : BitVec 4) : Issue := fun s => do
  let e := s.env
  let t := s.tile e.n
  nCombo e g o (some olane)
  nAlign e t o
  let fs ← tapGroup t e.now g.dir g.lane.toNat (NGrp.lanes g) (expStamp t e.now st) false 13
  let s ← nReserve o s
  let s ← if fs.any (·.eos) then .ok s else nStore o (fs.map (·.data)) s
  .ok (redrive odir olane.toNat fs s)

/-- The sum of two parts (R212): 0 f32, 1 i32, 2 bf16. -/
def addParts (rfmt : Nat) (a b : BitVec 256) : BitVec 256 × Flags :=
  let w := if rfmt = 2 then 16 else 32
  let one (x y : Nat) : Nat × Flags :=
    if rfmt = 1 then ((x + y) % 2 ^ 32, fNone)
    else
      let f : Fmt := if rfmt = 2 then .bf16 else .f32
      let r := addNum false (elemValue f x) (elemValue f y)
      let q := roundFmt (if rfmt = 2 then bf16 else fp32) .rne false 0 r.1
      (q.1, r.2 ||| q.2)
  let rs := (List.range (256 / w)).map (fun i => one (part w a.toNat i) (part w b.toNat i))
  (BitVec.ofNat 256 (rs.foldr (fun r acc => r.1 + 2 ^ w * acc) 0), rs.foldl (fun f r => f ||| r.2) fNone)

def issueSred (g : NGrp) (o : NOpnd) (st : Stamp) (odir : Dir) (olane : BitVec 4) (rfmt : BitVec 2) : Issue := fun s => do
  let e := s.env
  let t := s.tile e.n
  nCombo e g o (some olane)
  nAlign e t o
  let fs ← tapGroup t e.now g.dir g.lane.toNat (NGrp.lanes g) (expStamp t e.now st) false 13
  let (parts, s) ← nSource o (NGrp.lanes g) s
  if fs.any (·.eos) then .ok (redrive odir olane.toNat fs s)
  else
    let rs := (fs.zip parts).map (fun p => addParts rfmt.toNat p.1.data p.2)
    let s := s.mapTile e.n (fun t => t.push e (e.now + 2) (.flags (rs.foldl (fun f r => f ||| r.2) fNone)))
    .ok (driveAll odir olane.toNat (BitVec.ofNat 16 e.now) false (rs.map (·.1)) s)

end Sys2Proof.Machine
end

