-- ==== Sys2Proof/Machine/Vault.lean ====
section
/-! DEFINITION. The vault's bank records and windows: ageing, the checks of a D command, and what it changes
(04_vault.md R79-R101, 05 R104). -/
namespace Sys2Proof.Machine

/-- The physical address of a column (07 R114, region 0x0): tile, stratum, bank, row, column
(DESIGN CHOICE, log entry 4). -/
def vaultAddr (n st bk row col : Nat) : Nat := n * 2 ^ 29 + st * 2 ^ 27 + bk * 2 ^ 23 + row * 2 ^ 11 + col * 64

def Vault.bank (v : Vault) (k : Nat) : Bank := aget Bank.reset v.banks k
/-- The 16 records of a stratum. -/
def Vault.stratum (v : Vault) (st : Nat) : List Bank := (List.range 16).map (fun b => v.bank (16 * st + b))
def Vault.setBank (v : Vault) (k : Nat) (b : Bank) : Vault := { v with banks := aset v.banks k b }
def Vault.setStratum (v : Vault) (st : Nat) (f : Bank → Bank) : Vault :=
  (List.range 16).foldl (fun v b => v.setBank (16 * st + b) (f (v.bank (16 * st + b)))) v

/-- A stratum is open to the context, and a service stratum (R79). -/
def Vault.en (v : Vault) (st : Nat) : Bool := (sget 0 v.vwb st).getLsbD 15
def Vault.svc (v : Vault) (st : Nat) : Bool := (sget 0 v.vwb st).getLsbD 14
/-- A scheduled stratum (R92), by its window alone: the marking of R82 is not asked (DESIGN CHOICE, log entry 55). -/
def Vault.scheduled (v : Vault) (st : Nat) : Bool := v.en st && !v.svc st
def Vault.base (v : Vault) (st : Nat) : Nat := (sget 0 v.vwb st).toNat % 4096
def Vault.limit (v : Vault) (st : Nat) : Nat := (sget 0 v.vwl st).toNat % 4096

/-- The deadline of a band in mp (R90). -/
def deadline (band : Nat) : Nat := 15600 / 2 ^ band
/-- The refresh bound Dsc of a variant (R92). -/
def Variant.dsc (v : Variant) : Nat := deadline v.ceil / Nat.max 1 v.bmp

/-! ### Ageing -/

def bump {w : Nat} (x : BitVec w) : BitVec w := if x = BitVec.allOnes w then x else x + 1
def drop {w : Nat} (x : BitVec w) : BitVec w := if x = 0 then x else x - 1

/-- A record one sc later; its refresh bound counts where its stratum is scheduled (R84, R92). -/
def Bank.age (b : Bank) (counts : Bool) : Bank :=
  { b with aact := bump b.aact, ard := bump b.ard, awr := bump b.awr,
           apre := if b.state = 2 then drop b.apre else bump b.apre,
           refrem := drop b.refrem, refdue := if counts then drop b.refdue else b.refdue }

/-- The records as the next sc begins, with the banks whose REFDUE reaches 0 in it: those at 1, by the step to 0 (R84, R92,
R101; DESIGN CHOICE, log entry 68). -/
def Vault.age (v : Vault) : Vault :=
  { v with before := v.banks,
           banks := v.banks.map (fun p => (p.1, p.2.age (v.scheduled (p.1 / 16)))),
           frozen := false
           expired := (v.banks.filter (fun p => v.scheduled (p.1 / 16) && p.2.refdue = 1)).map (·.1) }
/-- A frozen sc begins (R101). -/
def Vault.freeze (v : Vault) : Vault := { v with before := v.banks, frozen := true, expired := [] }
/-- A trap keeps the records of the end of the sc before, and its sc is a frozen sc (R101). -/
def Vault.revert (v : Vault) : Vault := { v with banks := v.before, frozen := true, expired := [], d0 := none }

/-- The precharge point of an auto-precharge (R88, R104). -/
def Bank.precharged (b : Bank) : Bank := { b with state := 0, row := 0, apre := 0 }

/-! ### The checks of R94 -/

/-- The nine D commands. -/
inductive DOp where
  | act | rd | wr | rda | wra | pre | prea | ref | refb
deriving DecidableEq, Repr

def DOp.column : DOp → Bool
  | .rd | .wr | .rda | .wra => true
  | _ => false
def DOp.reads : DOp → Bool
  | .rd | .rda => true
  | _ => false
def DOp.writes : DOp → Bool
  | .wr | .wra => true
  | _ => false
/-- Activate-class commands: ACT and refresh. -/
def DOp.acts : DOp → Bool
  | .act | .ref | .refb => true
  | _ => false
def DOp.closes : DOp → Bool
  | .pre | .prea => true
  | _ => false
/-- Commands that name every bank of a stratum. -/
def DOp.whole : DOp → Bool
  | .prea | .ref => true
  | _ => false

/-- The DSTATE sub-code of a command on a bank (R83). -/
def dstateOf (op : DOp) (b : Bank) : Option Nat :=
  if b.state = 0 then (if op.column then some 0x20 else none)
  else if b.state = 1 then (if op.acts then some 0x21 else none)
  else if b.state = 2 then (if op.column || op.closes then some 0x22 else none)
  else none

/-- The sc since a running refresh began. -/
def Bank.refAge (b : Bank) : Nat := (if b.rkind then 1120 else 240) - b.refrem.toNat
/-- The sc since the stratum's last activate-class event, at most 255 (R85, R87). -/
def actAge (bs : List Bank) : Nat :=
  bs.foldl (fun n b => Nat.min n (if b.state = 3 then Nat.min b.aact.toNat b.refAge else b.aact.toNat)) 255
/-- Activate-class events of the last 63 sc (R87). -/
def actEvents (bs : List Bank) : Nat :=
  (bs.filter (fun b => b.aact.toNat ≤ 63)).length +
  (bs.filter (fun b => b.state = 3 && !b.rkind && b.refAge ≤ 63)).length +
  (if bs.any (fun b => b.state = 3 && b.rkind && b.refAge ≤ 63) then 4 else 0)

/-- The minima of R87 that a command on bank k of a stratum fails, for one sub-code. -/
def dtimeFails (op : DOp) (bs : List Bank) (k sub : Nat) : Bool :=
  let b := (bs[k]?).getD Bank.reset
  let open1 := b.state = 1
  let others (f : Bank → Bool) : Bool := (List.range 16).any (fun i => i != k && f ((bs[i]?).getD Bank.reset))
  match sub with
  | 0x1 => op.column && open1 && b.aact.toNat < 48
  | 0x2 => op.acts && (b.state = 2 || (b.state = 0 && b.apre.toNat < 48))
  | 0x3 => open1 && ((op.closes && b.aact.toNat < 112) || (op = .rda && b.aact.toNat + 12 < 112) ||
      (op = .wra && b.aact.toNat + 60 < 112))
  | 0x4 => op = .act && b.aact.toNat < 160
  | 0x5 => op.acts && actAge bs < 8
  | 0x6 => op.acts && 4 ≤ actEvents bs
  | 0x7 => op.column && others (fun c => c.ard.toNat < 2 || c.awr.toNat < 2)
  | 0x8 => op.column && (b.ard.toNat < 4 || b.awr.toNat < 4)
  | 0x9 => op.closes && open1 && b.ard.toNat < 12
  | 0xA => op.closes && open1 && b.awr.toNat < 60
  | 0xB => op.reads && bs.any (fun c => c.awr.toNat < 16)
  | 0xC => op.writes && bs.any (fun c => c.ard.toNat < 10)
  | 0xD => b.state = 3 && !b.rkind
  | 0xE => b.state = 3 && b.rkind
  | 0xF => op = .refb && others (fun c => c.state = 3 && !c.rkind && c.refAge < 32)
  | _ => false

/-- A vault trap (R96). -/
def vaultTrap (code : BitVec 8) (addr sub st bk row slot : Nat) : Trap :=
  trapAt code addr sub (st * 2 ^ 22 + bk * 2 ^ 18 + row % 4096 * 64 + slot)

/-- The banks a command is checked on. -/
def dBanks (op : DOp) (bk : Nat) : List Nat := if op.whole then List.range 16 else [bk]

/-- The sub-code and bank of the first failing minimum (R94, R96). -/
def dtimeFirst (op : DOp) (bs : List Bank) (bk : Nat) : Option (Nat × Nat) :=
  ((List.range 15).map (· + 1)).findSome? (fun sub =>
    ((dBanks op bk).find? (fun k => dtimeFails op bs k sub)).map
      (fun k => (sub, if op.whole && (sub = 5 || sub = 6) then 0 else k)))
def dstateFirst (op : DOp) (bs : List Bank) (bk : Nat) : Option (Nat × Nat) :=
  (dBanks op bk).findSome? (fun k => (dstateOf op ((bs[k]?).getD Bank.reset)).map (fun sub => (sub, k)))

/-- The trap of a D command, if it fails a check (R80, R86, R94) (DEDUCED, log entry 16). -/
def dCheck (e : Env) (v : Vault) (op : DOp) (st bk row : Nat) : Option Trap :=
  let trow := if op = .act then row else 0
  let tb := if op.whole then 0 else bk
  if !v.en st then some (vaultTrap 0x08 e.addr 0x30 st tb trow e.slot)
  else if v.svc st then some (vaultTrap 0x08 e.addr 0x31 st tb trow e.slot)
  else if op = .act && v.limit st < v.base st + row then some (vaultTrap 0x08 e.addr 0x32 st tb trow e.slot)
  else
    let same := match v.d0 with
      | some (k, _) => k = st && e.slot = 12
      | none => false
    let bs := match v.d0 with
      | some (_, old) => if same then old else v.stratum st
      | none => v.stratum st
    match dstateFirst op bs bk with
    | some (sub, k) => some (vaultTrap 0x07 e.addr sub st k trow e.slot)
    | none =>
      if same then some (vaultTrap 0x06 e.addr 0 st tb trow e.slot)
      else match dtimeFirst op bs bk with
        | some (sub, k) => some (vaultTrap 0x06 e.addr sub st k trow e.slot)
        | none => none

/-! ### What a command changes (R104) -/

def Bank.onPre (b : Bank) : Bank := if b.state = 1 then b.precharged else b
def Bank.onRef (dsc rem : Nat) (all : Bool) (b : Bank) : Bank :=
  { b with state := 3, refrem := BitVec.ofNat 11 rem, rkind := all, refdue := BitVec.ofNat 14 dsc }

/-- The records after a command that passed its checks. -/
def dEffect (v : Vault) (op : DOp) (st bk row dsc : Nat) : Vault :=
  let on (f : Bank → Bank) : Vault := v.setBank (16 * st + bk) (f (v.bank (16 * st + bk)))
  match op with
  | .act => on (fun b => { b with state := 1, row := BitVec.ofNat 12 (v.base st + row), aact := 0 })
  | .rd => on (fun b => { b with ard := 0 })
  | .wr => on (fun b => { b with awr := 0 })
  | .rda => on (fun b => { b with ard := 0, state := 2, apre := 12 })
  | .wra => on (fun b => { b with awr := 0, state := 2, apre := 60 })
  | .pre => on Bank.onPre
  | .prea => v.setStratum st Bank.onPre
  | .refb => on (Bank.onRef dsc 240 false)
  | .ref => v.setStratum st (Bank.onRef dsc 1120 true)

/-! ### Registers (R79, R84) -/

/-- BANKST of a bank. -/
def Bank.toBits (b : Bank) : BitVec 64 :=
  b.state ++ b.row ++ b.aact ++ b.ard ++ b.awr ++ b.apre ++ b.refrem ++ BitVec.ofBool b.rkind ++ b.refdue
def Bank.ofBits (x : BitVec 64) : Bank :=
  { state := x.extractLsb' 62 2, row := x.extractLsb' 50 12, aact := x.extractLsb' 42 8, ard := x.extractLsb' 38 4,
    awr := x.extractLsb' 32 6, apre := x.extractLsb' 26 6, refrem := x.extractLsb' 15 11, rkind := x.getLsbD 14,
    refdue := x.extractLsb' 0 14 }

/-- A window register written: SVC is set only for a stratum of the marking (R79, R82); a stratum that becomes
scheduled starts its bounds, one that no longer is holds 0x3FFF (R92). -/
def Vault.setVwb (v : Vault) (st : Nat) (x : BitVec 64) (dsc : Nat) : Vault :=
  let w := (x &&& 0x8FFF) ||| (if v.svcMark.getLsbD st then x &&& 0x4000 else 0)
  let v' := { v with vwb := sset 0 v.vwb st w }
  if v'.scheduled st && !v.scheduled st then
    v'.setStratum st (fun b => { b with refdue := BitVec.ofNat 14 dsc })
  else if !v'.scheduled st && v.scheduled st then v'.setStratum st (fun b => { b with refdue := 0x3FFF })
  else v'
def Vault.setVwl (v : Vault) (st : Nat) (x : BitVec 64) : Vault := { v with vwl := sset 0 v.vwl st (x &&& 0xFFF) }

end Sys2Proof.Machine
end

