-- ==== Sys2Proof/Machine/VaultOps.lean ====
section
/-! DEFINITION. Issuing the nine D commands (05_vault_commands.md), and the vault's own events of a bank. -/
namespace Sys2Proof.Machine

/-- The refresh bound of the variant that runs on a tile (04 R92); the largest count where no plot runs. -/
def State.dsc (s : State) (n : Nat) : Nat := match s.plotOf n with | some pl => pl.var.dsc | none => 0x3FFF

/-- The plot pulse of its sc on which the slot group of the D slots issues (28 R457). -/
def State.dPulse (s : State) (n : Nat) : Nat :=
  match s.plotOf n with | some pl => if pl.split = 2 then 2 else 0 | none => 0
/-- A refresh of banks at a master pulse restarts their mp deadlines (04 R91). -/
def Vault.refreshAt (v : Vault) (ks : List Nat) (mp : Nat) : Vault :=
  { v with refMp := ks.foldl (fun l k => aset l k mp) v.refMp }
/-- A refresh of the banks a command names issues at this master pulse, or with its slot group on a later one (28 R457). -/
def Vault.refreshed (v : Vault) (op : DOp) (st bk pulse mp : Nat) : Vault :=
  let ks := if op = .ref || op = .refb then (dBanks op bk).map (16 * st + ·) else []
  if pulse = 0 then v.refreshAt ks mp else { v with refLate := v.refLate ++ ks }
/-- The refreshes of the D group issue with it. -/
def Vault.flushRef (v : Vault) (mp : Nat) : Vault := { v.refreshAt v.refLate mp with refLate := [] }

/-- A D command without a scratchpad access (R104). -/
def issueCmd (op : DOp) (st bk row : Nat) : Issue := counted 7 fun s =>
  let dsc := s.dsc s.cur.tile
  let pulse := s.dPulse s.cur.tile
  onTile (fun e t =>
    match dCheck e t.vault op st bk row with
    | some tr => .error tr
    | none =>
      let v := (dEffect t.vault op st bk row dsc).refreshed op st bk pulse s.mp
      .ok { t with vault := { v with d0 := if e.slot = 11 then some (st, t.vault.stratum st) else v.d0 } }) s

/-- A column command: its checks, its port, its record changes, and its landing or sample (R104-R106). -/
def issueCol (op : DOp) (f : DCol) : Issue := counted 7 fun s =>
  let dsc := s.dsc s.cur.tile
  onTile (fun e t =>
    let st := f.st.toNat
    let bk := f.bk.toNat
    let g := f.spad.toNat
    match dCheck e t.vault op st bk 0 with
    | some tr => .error tr
    | none =>
      let due := e.now + (if op.reads then 56 else 12)
      match reserve e [⟨due, op.reads, g⟩] t with
      | .error tr => .error tr
      | .ok t' =>
        let row := (t.vault.bank (16 * st + bk)).row.toNat
        let v := dEffect t.vault op st bk 0 dsc
        let v := { v with d0 := if e.slot = 11 then some (st, t.vault.stratum st) else v.d0 }
        .ok ({ t' with vault := v }.push e due
          (if op.reads then .land st bk row ((row + 4096 - t.vault.base st) % 4096) f.col.toNat g
           else .sample st bk row f.col.toNat g))) s

def issueAct (st : BitVec 2) (bk : BitVec 4) (row : BitVec 12) : Issue := issueCmd .act st.toNat bk.toNat row.toNat
def issueRd (f : DCol) : Issue := issueCol .rd f
def issueWr (f : DCol) : Issue := issueCol .wr f
def issueRda (f : DCol) : Issue := issueCol .rda f
def issueWra (f : DCol) : Issue := issueCol .wra f
def issuePre (st : BitVec 2) (bk : BitVec 4) : Issue := issueCmd .pre st.toNat bk.toNat 0
def issuePrea (st : BitVec 2) : Issue := issueCmd .prea st.toNat 0 0
def issueRef (st : BitVec 2) : Issue := issueCmd .ref st.toNat 0 0
def issueRefb (st : BitVec 2) (bk : BitVec 4) : Issue := issueCmd .refb st.toNat bk.toNat 0

/-- PRECHARGE_POINT: the precharge point of bank k (16 n + b) of a tile is reached (04 R88). -/
def atPrechargePoint (t : Tile) (k : Nat) : Bool := (t.vault.bank k).state = 2 && (t.vault.bank k).apre = 0
def prechargePoint (n k : Nat) (s : State) : State :=
  if atPrechargePoint (s.tile n) k then
    s.mapTile n (fun t => { t with vault := t.vault.setBank k (t.vault.bank k).precharged })
  else s
/-- REFRESH_COMPLETE: REFREM of bank k has reached 0 (04 R83). -/
def atRefreshComplete (t : Tile) (k : Nat) : Bool := (t.vault.bank k).state = 3 && (t.vault.bank k).refrem = 0
def refreshComplete (n k : Nat) (s : State) : State :=
  if atRefreshComplete (s.tile n) k then
    s.mapTile n (fun t => { t with vault := t.vault.setBank k { (t.vault.bank k) with state := 0 } })
  else s
/-- DREFL: banks whose REFDUE reached 0 in this sc; the lowest of the lowest stratum is reported (04 R92, R96). -/
def dreflFalls (n : Nat) (s : State) : State :=
  match (s.tile n).vault.expired with
  | [] => s
  | k :: _ => s.mapTile n (fun t =>
      { t with vault := { t.vault with expired := [] } }.addBoundary 4
        (vaultTrap 0x09 0 0x40 (k / 16) (k % 16) 0 0xF) none)

end Sys2Proof.Machine
end

