-- ==== Sys2Proof/Machine/Special.lean ====
section
/-! DEFINITION. Special registers: what MOVS reads and what MOVT writes (11 R201-R203, 13 R247, 28 R464, R470). -/
namespace Sys2Proof.Machine

/-- The canonical mask of a pattern of d pulses (28 R454). -/
def twillMask (d : Nat) : BitVec 16 :=
  BitVec.ofNat 16 (pack 1 (fun i => if i * d / 16 < (i + 1) * d / 16 then 1 else 0) 16)

/-- Bits [7:0] of CAPS (00 R2). -/
def Model.caps : Model → Nat
  | .d48 => 0x80 + 0x20 + 0x10 + 1
  | .d24 => 0x40 + 0x20 + 2
  | .d48n => 0x80 + 0x10 + 3
/-- The keep store is present. -/
def Model.keep : Model → Bool
  | .d48n => false
  | _ => true
/-- Links that are trained (R203). -/
def State.linkUp (s : State) : Nat := pack 1 (fun n => if n < s.model.links && (s.link n).state = 2 then 1 else 0) 12
/-- CAPS2 (R203). -/
def State.caps2 (s : State) : BitVec 64 :=
  let pad := match s.model with | .d24 => 0 | _ => 4
  BitVec.ofNat 64 (pad * 2 ^ 40 + s.linkUp * 2 ^ 28 + 64 * 2 ^ 16 + 8 * 2 ^ 8 + 0xF)

/-- µs of real time that mp pulses of the master clock last (00 R6). -/
def mpUs (mp : Nat) : Nat := mp / 4000
/-- µJ charged to a context since a reading of its counter (28 R466). -/
def usedUj (now before : BitVec 64) : Nat := now.toNat / 1024 - before.toNat / 1024
/-- What is left of a lease: µs and µJ (R464). -/
def Lease.left (l : Lease) (mp : Nat) (energy : BitVec 64) : Nat × Nat :=
  if l.state = 2 then (l.us - mpUs (mp - l.mp), l.uj - usedUj energy l.energy) else (l.us, l.uj)
/-- LEASEST (R464). -/
def Lease.word (l : Lease) (mp : Nat) (energy : BitVec 64) : BitVec 64 :=
  let p := l.left mp energy
  BitVec.ofNat 64 (l.state.toNat * 2 ^ 62 + l.reason.toNat * 2 ^ 58 + l.pulses * 2 ^ 53 + p.2 * 2 ^ 28 + p.1)

/-- The state of a plot's lease changed, with its record (29 R477). -/
def State.setLease (s : State) (k : Nat) (f : Lease → Lease) : State :=
  match afind s.plots k with
  | none => s
  | some pl =>
    let l := f pl.lease
    let w := (l.word s.mp (s.ctx pl.ctx).energy).toNat
    (s.mapPlot k (fun p => { p with lease := l })).record 0x41 pl.ctx 0 (w / 2 ^ 32) (w % 2 ^ 32)
/-- A lease that is pending or granted ends, or is returned (28 R463, R465). -/
def State.endLease (s : State) (k : Nat) (reason : BitVec 4) : State :=
  match afind s.plots k with
  | none => s
  | some pl =>
    if pl.lease.state = 1 || pl.lease.state = 2 then
      s.setLease k (fun l =>
        let p := l.left s.mp (s.ctx pl.ctx).energy
        { l with state := 3, reason := reason, us := p.1, uj := p.2, again := false })
    else s
/-- A lease frozen as its plot stops; one that is pending is asked for again with its terms (28 R465). -/
def State.freezeLease (s : State) (k : Nat) : State :=
  match afind s.plots k with
  | none => s
  | some pl =>
    if pl.lease.state = 1 || pl.lease.state = 2 then
      s.setLease k (fun l =>
        let p := l.left s.mp (s.ctx pl.ctx).energy
        { l with state := 0, us := p.1, uj := p.2, again := true })
    else s
/-- The pattern of a lease that stands in a context descriptor (28 R465). -/
def Lease.terms (l : Lease) : Nat := if l.pulses = 0 then l.ask else l.pulses

/-- MUSTSV of a tile of a plot (R470). -/
def Plot.mustsv (pl : Plot) (keep : Bool) : BitVec 64 :=
  let n := pl.tt.musts.length
  BitVec.ofNat 64 (pl.charged.toNat * 2 ^ 33 + keep.toNat * 2 ^ 32 +
    pack 1 (fun i => if (afind pl.marks i).isSome then 1 else 0) 16 * 2 ^ 16 + (2 ^ n - 1))

/-- A register that only the tile monitor reads and writes (R201). -/
def idSv (id : Nat) : Bool := id = 0x24 || 0x100 ≤ id

/-- The value of a special register of a tile at the start of the current sc (R201, R247) (DEDUCED, log entry 15). -/
def State.special (s : State) (n id : Nat) : BitVec 64 :=
  let t := s.tile n
  let pl := s.plotOf n
  let ofPlot (f : Plot → Nat) : BitVec 64 := match pl with | some p => BitVec.ofNat 64 (f p) | none => 0
  if 0x100 ≤ id && id < 0x140 then (t.vault.bank (id - 0x100)).toBits
  else if 0x140 ≤ id && id < 0x144 then sget 0 t.vault.vwb (id - 0x140)
  else if 0x144 ≤ id && id < 0x148 then sget 0 t.vault.vwl (id - 0x144)
  else if 0x31 ≤ id && id ≤ 0x36 then
    match t.seq.loops.reverse[id - 0x31]? with | some l => l.index.setWidth 64 | none => 0
  else match id with
    | 0x000 => ofPlot (fun p => p.scyc % 2 ^ 48)
    | 0x001 => BitVec.ofNat 64 s.mp
    | 0x002 => BitVec.ofNat 64 t.lx
    | 0x003 => BitVec.ofNat 64 t.ly
    | 0x004 => ofPlot (·.w)
    | 0x005 => ofPlot (·.h)
    | 0x006 => ofPlot (fun p => p.tt.bedw * 8 + p.tt.bedh)
    | 0x008 => ofPlot (·.ctx)
    | 0x009 => (s.ctx (s.ctxOf n)).part.setWidth 64
    | 0x010 => t.regs.flags.setWidth 64
    | 0x011 => t.regs.rmode.setWidth 64
    | 0x012 => t.regs.rngKey0.setWidth 64
    | 0x013 => t.regs.rngKey1.setWidth 64
    | 0x014 => t.regs.rngCtr
    | 0x020 => t.trap.tcause
    | 0x021 => t.trap.tpc
    | 0x022 => t.trap.tval
    | 0x023 => t.trap.tscyc
    | 0x024 => t.trap.evec
    | 0x030 => BitVec.ofNat 64 t.seq.loops.length
    | 0x040 => BitVec.ofNat 64 (0x01 * 2 ^ 16 + t.panels * 2 ^ 8 + s.model.caps)
    | 0x041 => s.caps2
    | 0x050 => (twillMask (s.cluster (clusterOf n)).pat).setWidth 64
    | 0x051 => ofPlot (fun p => p.split.toNat)
    | 0x052 => BitVec.ofNat 64 ((match pl with | some p => p.scEnergy | none => (s.ctx (s.ctxOf n)).energy).toNat / 1024)
    | 0x053 => match pl with | some p => p.lease.word s.mp p.scEnergy | none => 0
    | 0x060 => match pl with | some p => p.mustsv s.model.keep | none => 0
    | 0x061 => t.saveSeq
    | _ => 0

def issueMovs (d : BitVec 6) (id : BitVec 12) : Issue := fun s =>
  let e := s.env
  if idSv id.toNat && !(s.tile e.n).trap.sup then .error (priv e.slot)
  else .ok (s.mapTile e.n (fun t => t.push e (e.now + 1) (t.wScalar d (s.special e.n id.toNat))))

/-- A MOVT: only a register that the mode may write gets an effect (R201). -/
def issueMovt (a : BitVec 6) (id : BitVec 12) : Issue := onTile fun e t =>
  let i := id.toNat
  let rw := 0x10 ≤ i && i ≤ 0x14
  let sv := t.trap.sup && ((0x20 ≤ i && i ≤ 0x24) || 0x100 ≤ i)
  if idSv i && !t.trap.sup then .error (priv e.slot)
  else if rw || sv then .ok (t.push e (e.now + 1) (.special i (t.rs a)))
  else .ok t

/-- The effect of a MOVT (R201, R225, R268, 04 R79, R84) (DEDUCED, log entry 26). TVAL keeps all 64 bits (DESIGN CHOICE,
log entry 66). -/
def Tile.writeSpecial (t : Tile) (id : Nat) (v : BitVec 64) (dsc : Nat) : Tile :=
  let regs (f : Regs → Regs) : Tile := t.mapRegs f
  let trap (f : TrapRegs → TrapRegs) : Tile := { t with trap := f t.trap }
  if 0x100 ≤ id && id < 0x140 then
    let b := Bank.ofBits v
    { t with vault := { t.vault.setBank (id - 0x100) b with before := aset t.vault.before (id - 0x100) b } }
  else if 0x140 ≤ id && id < 0x144 then { t with vault := t.vault.setVwb (id - 0x140) v dsc }
  else if 0x144 ≤ id && id < 0x148 then { t with vault := t.vault.setVwl (id - 0x144) v }
  else match id with
    | 0x010 => regs (fun r => { r with flags := v.setWidth 8 })
    | 0x011 => regs (fun r => { r with rmode := if v.toNat % 8 < 6 then v.setWidth 3 else 0 })
    | 0x012 => regs (fun r => { r with rngKey0 := v.setWidth 32 })
    | 0x013 => regs (fun r => { r with rngKey1 := v.setWidth 32 })
    | 0x014 => regs (fun r => { r with rngCtr := v &&& ~~~ 3#64 })
    | 0x020 => trap (fun r => { r with tcause := v &&& 0x1FFFF })
    | 0x021 => trap (fun r => { r with tpc := v })
    | 0x022 => trap (fun r => { r with tval := v })
    | 0x023 => trap (fun r => { r with tscyc := v })
    | 0x024 => trap (fun r => { r with evec := v })
    | _ => t

end Sys2Proof.Machine
end

