-- ==== Sys2Proof/Machine/Effects.lean ====
section
/-! DEFINITION. The effects of operations as they take place in their sc: register writes, scratchpad writes, vault
landings and samples, late reads, and the drain before a trap (05 R105-R109, 06 R111, 02 R41, 09 R152-R168). -/
namespace Sys2Proof.Machine

/-- An uncorrectable error met in a drain is counted (05 R111, 27 R452). -/
def State.drainError (s : State) (n : Nat) (drain : Bool) : State :=
  if drain then s.mapTile n (fun t => { t with softLog := t.softLog + 1 }) else s

/-! ### Reads of a later port sc -/

/-- The conditions that a read of a span meets in its port sc: SPDATA, then RACE (04 R95, 09 R152, R168). -/
def State.readTraps (s : State) (n : Nat) (p : Pend) (a len : Nat) : List (Nat × Trap) :=
  match s.spadErr n a len p.due p.slot with
  | some g => [(2, spdata p.addr p.slot 0xD0 g)]
  | none =>
    match s.claim n n .read (gransOf a len) with
    | .ok _ => []
    | .error (sub, g, wp) => [(3, raceTrap p.addr p.slot sub g wp)]
/-- The spans that a late read reads, in order. -/
def lateSpans (p : Pend) : List (Nat × Nat) :=
  match p.act with
  | .sample _ _ _ _ g => [(64 * g, 64)]
  | .gather _ ls => ls.map (fun l => (l.2, 4))
  | .lddRead _ _ i ea _ => [(ea + 256 * i, 256)]
  | .ldwbRead _ ea _ n j => [(ea + 64 * j, 64 * Nat.min 4 (n - j))]
  | .strRead _ ea => [(ea, 64)]
  | _ => []
/-- The boundary conditions of the late reads of a tile that fall in sc u. -/
def State.lateTraps (s : State) (n u : Nat) : List (Nat × Trap) :=
  (s.tile n).pend.flatMap (fun p =>
    if p.due = u && p.rank = 5 then
      match p.act with
      | .atomRead _ w64 ea _ _ _ _ =>
        (match s.spadErr n ea (if w64 then 8 else 4) u p.slot with
          | some g => [(2, spdata p.addr p.slot 0xD0 g)]
          | none => [])
      | _ => (lateSpans p).flatMap (fun q => s.readTraps n p q.1 q.2)
    else [])

/-- A late read of one span: the bytes, with its claim made, or the cause for which it reads nothing. In a drain an
uncorrectable error is counted (05 R111, 27 R452). -/
def State.lateRead (s : State) (n : Nat) (p : Pend) (a len : Nat) (drain : Bool) : Except MemFault (List Byte) × State :=
  match s.spadErr n a len p.due p.slot with
  | some _ => (.error (0x0E, 0x50, 0), s.drainError n drain)
  | none =>
    match s.claim n n .read (gransOf a len) with
    | .ok tags =>
      (.ok (s.spadRead n a len), (s.mapTile n (fun t => { t with tags := tags })).spadCorrect n a len p.due p.slot)
    | .error (sub, _, wp) => (.error (0x0F, sub - 0x80, wp), s)

/-! ### Effects -/

/-- A boundary condition. In a drain it is none: the racing access is dropped, and nothing is recorded or raised
(DESIGN CHOICE, log entry 57). -/
def State.condition (s : State) (n : Nat) (drain : Bool) (rank : Nat) (tr : Trap) : State :=
  if drain then s else s.mapTile n (Tile.addBoundary rank tr none)

/-- A static write in its port sc: claimed, and made unless it races (09 R166). -/
def State.landWrite (s : State) (n : Nat) (p : Pend) (a : Nat) (b : List Byte) (drain : Bool) : State :=
  match s.claim n n .write (gransOf a b.length) with
  | .ok tags => (s.mapTile n (fun t => { t with tags := tags })).spadWrite n a b
  | .error (sub, g, wp) => s.condition n drain 3 (raceTrap p.addr p.slot sub g wp)

/-- A vault landing (05 R105, R108). -/
def State.landVault (s : State) (n : Nat) (p : Pend) (st bk row lrow col g : Nat) (drain : Bool) : State :=
  let pa := vaultAddr n st bk row col
  if s.errs.contains pa then
    (s.drainError n drain).condition n drain 1 (vaultTrap 0x0A p.addr 0x50 st bk lrow p.slot)
  else (s.correctIn pa 64).landWrite n p (64 * g) (Memory.read s.mem pa 64) drain

/-- A SAVEPT of a declared item (19 R359, 28 R470): the lowest rank of an sc prevails. -/
def State.savept (s : State) (n issue item : Nat) (v : BitVec 32) : State :=
  match (s.tile n).plot, s.plotOf n with
  | some k, some pl =>
    if pl.tt.musts.length ≤ item then s
    else
      let rank := (s.tile n).ly * pl.w + (s.tile n).lx
      let keep := match afind pl.marks item with | some m => m.scyc = issue && m.rank < rank | none => false
      let s := s.mapTile n (fun t => { t with saveSeq := BitVec.ofNat 64 (item * 2 ^ 32) ||| v.setWidth 64 })
      if keep then s else s.mapPlot k (fun pl => { pl with marks := aset pl.marks item ⟨v, issue, rank⟩ })
  | _, _ => s

/-- A LEASE of a tile, issued at sc issue, pending from the next sc on (28 R463): the lowest rank of an sc prevails. -/
def State.askLease (s : State) (n issue pulses us uj : Nat) : State :=
  match (s.tile n).plot, s.plotOf n with
  | some k, some pl =>
    let rank := (s.tile n).ly * pl.w + (s.tile n).lx
    if pl.lease.state = 1 && !pl.lease.again && pl.lease.askSc = issue && pl.lease.askRank < rank then s
    else
      s.setLease k (fun _ => { Lease.reset with
        state := 1, ask := pulses, us := us, uj := uj, askSc := issue, askRank := rank })
  | _, _ => s
/-- The new cells of a gather's lanes, with the lanes that were read (10 R183). -/
def gatherRead (n : Nat) (p : Pend) (ls : List (Nat × Nat)) (drain : Bool) (s : State) : List (Nat × Nat) × State :=
  ls.foldl (fun acc l =>
    match acc.2.lateRead n p l.2 4 drain with
    | (.ok b, s) => ((l.1, leNat b) :: acc.1, s)
    | (.error _, s) => (acc.1, s)) ([], s)

/-- The granules of one sc of a weight-buffer load, one granule set (09 R153, R166, 10 R185). -/
def ldwbStep (n : Nat) (p : Pend) (half : Bool) (ea o cnt j : Nat) (drain : Bool) (s : State) : State :=
  let k := Nat.min 4 (cnt - j)
  let s := match s.lateRead n p (ea + 64 * j) (64 * k) drain with
    | (.ok b, s) => s.mapTile n (fun t => (t.heal (rdBlock half (o + j) k)).mapRegs (fun r =>
        { r with wb := (List.range k).foldl (fun w i =>
            sset 0 w (1024 * half.toNat + o + j + i) (granOfBytes ((b.drop (64 * i)).take 64))) r.wb }))
    | (.error _, s) => s
  if j + 4 < cnt then
    s.mapTile n (fun t => t.pushAs p.seq p.addr p.slot (p.due + 1) (.ldwbRead half ea o cnt (j + 4)))
  else s

/-- The bytes from a on with the writes of atomics that land in sc u taken as made. -/
def Tile.underWay (t : Tile) (u a : Nat) (b : List Byte) : List Byte :=
  t.pend.foldl (fun b p => match p.act with
    | .spadWr c w false =>
      if p.due = u then (List.range b.length).map (fun i =>
        if c ≤ a + i then (w[a + i - c]?).getD (b.getD i 0) else b.getD i 0) else b
    | _ => b) b
/-- A local atomic reads, and its write and result are on their way (10 R186). -/
def atomStep (n : Nat) (p : Pend) (op : AtOp) (w64 : Bool) (ea : Nat) (x cmp : BitVec 64) (sup : Bool) (r : Nat)
    (drain : Bool) (s : State) : State :=
  let w := if w64 then 64 else 32
  match s.spadErr n ea (w / 8) p.due p.slot with
  | some _ => s.drainError n drain
  | none =>
    let s := s.spadCorrect n ea (w / 8) p.due p.slot
    -- an atomic of the same sc that came first has its write still on its way (09 R160)
    let old := leNat ((s.tile n).underWay (p.due + 1) ea (s.spadRead n ea (w / 8)))
    let q := atomNew op w old x.toNat cmp.toNat
    s.mapTile n (fun t =>
      let t := t.pushAs p.seq p.addr p.slot (p.due + 1) (.spadWr ea (leBytes (w / 8) q.1) false)
      let t := t.pushAs p.seq p.addr p.slot (p.due + 6) (.scalar sup r (BitVec.ofNat 64 old))
      t.pushAs p.seq p.addr p.slot (p.due + 6) (.flags q.2))

/-- A dynamic access of a number changed. -/
def Tile.mapDyn (t : Tile) (id : Nat) (f : Dyn → Dyn) : Tile :=
  { t with dyn := t.dyn.map (fun d => if d.id = id then f d else d) }

/-- The local read of an STR (10 R190); one that fails leaves the access faulted (10 R188; DEDUCED, log entry 12). -/
def strStep (n : Nat) (p : Pend) (id ea : Nat) (drain : Bool) (s : State) : State :=
  match s.lateRead n p ea 64 drain with
  | (.ok b, s) => s.mapTile n (fun t => t.mapDyn id (fun d => { d with data := some b }))
  | (.error f, s) => s.mapTile n (fun t => t.mapDyn id (fun d =>
      { d with fault := some ⟨f.1, BitVec.ofNat 8 f.2.1, d.va, BitVec.ofNat 9 f.2.2⟩ }))

/-- A checkpoint of the running MSEQ after k steps: its record (16 R321, 29 R477). -/
def State.checkpoint (s : State) (n addr k : Nat) : State :=
  (s.tileRecord n 0x22 addr k).mapTile n (fun t =>
    { t with mx := { t.mx with mseq := t.mx.mseq.map (fun m => { m with cp := k }) } })
/-- One effect of tile n in its sc; drain says that the tile drains before a trap (R111). The bytes of a WR replace the
column in their own sc, after the landings of that sc (R106) (DESIGN CHOICE, log entry 71). -/
def State.perform (s : State) (n : Nat) (p : Pend) (drain : Bool) : State :=
  let regs (f : Regs → Regs) : State := s.mapTile n (fun t => t.mapRegs f)
  match p.act with
  | .rng k => regs (fun r => r.advance k)
  | .special id v =>
    let dsc := s.dsc n
    s.mapTile n (fun t => t.writeSpecial id v dsc)
  | .scalar sup r v => regs (fun g => g.setScalar sup r v)
  | .pred q b => regs (fun g => g.setPred q b)
  | .preds v => regs (fun g => { g with preds := v ||| 1 })
  | .cells row mask v => regs (fun g => { g with vrow := sset 0 g.vrow row (mergeCells mask (sget 0 g.vrow row) v) })
  | .comps d v => regs (fun g => { g with dir := sset 0 g.dir d v })
  | .norm d v => regs (fun g => { g with norm := sset normZero g.norm d v })
  | .flags f => regs (fun g => g.orFlags f)
  | .accRow a m v => regs (fun g => { g with acc := sset 0 g.acc (64 * a + m) v })
  | .accFill a => regs (fun g => g.setAcc a (List.replicate 64 0))
  | .latch k v => regs (fun g => { g with lat := sset unityLatch g.lat k v })
  | .bari bar sc arr bw bh bytes =>
    let f := bariF sc arr bw bh bytes
    if drain then s.mapTile n (fun t => t.setBar bar (f.into (t.bar bar))) else s.bariAll n bar f
  | .savept item v => s.savept n (p.due - 1) item v
  | .lease pulses us uj => s.askLease n (p.due - 1) pulses us uj
  | .count bar arr bytes err esub => s.count n bar arr bytes fNone err esub
  | .driven => s
  | .spadWr a b claim => if claim then s.landWrite n p a b drain else s.spadWrite n a b
  | .land st bk row lrow col g => s.landVault n p st bk row lrow col g drain
  | .sample st bk row col g =>
    (match s.lateRead n p (64 * g) 64 drain with
      | (.ok b, s) => s.memWrite (vaultAddr n st bk row col) b
      | (.error _, s) => s)
  | .gather row ls =>
    let r := gatherRead n p ls drain s
    let q := match ls.head? with | some l => l.1 / 16 | none => 0
    r.2.mapTile n (fun t => t.pushAs p.seq p.addr p.slot (p.due + 11 - q)
      (.cells row (maskOf (fun j => r.1.any (fun l => l.1 == j)))
        (rowOfCells (fun j => ((r.1.find? (fun l => l.1 == j)).map (·.2)).getD 0))))
  | .lddRead d k i ea got =>
    (match s.lateRead n p (ea + 256 * i) 256 drain with
      | (.ok b, s) =>
        let rows := got ++ [rowOfBytes b]
        s.mapTile n (fun t =>
          if i + 1 < k then t.pushAs p.seq p.addr p.slot (p.due + 1) (.lddRead d k (i + 1) ea rows)
          else lddFinish t p.seq p.addr p.slot (p.due - i) d rows)
      | (.error _, s) => s)
  | .ldwbRead half ea o cnt j => ldwbStep n p half ea o cnt j drain s
  | .ldwbDone _ => s
  | .atomClaim ea w =>
    (match s.claim n n .write (gransOf ea w) with
      | .ok tags => s.mapTile n (fun t => { t with tags := tags })
      | .error (sub, g, wp) =>
        -- the atomic then neither reads nor writes (R186)
        (s.mapTile n (fun t => { t with pend := t.pend.filter (fun q => !(q.seq = p.seq && q.slot = p.slot &&
          q.due = p.due && q.rank = 5)) })).condition n drain 3 (raceTrap p.addr p.slot sub g wp))
  | .atomRead op w64 ea x cmp sup r => atomStep n p op w64 ea x cmp sup r drain s
  | .strRead id ea => strStep n p id ea drain s
  | .pass1 x c f => s.mapTile n (fun t => t.secondPass p x c f)
  | .ready a v f => regs (fun g => (g.setAcc a v).orFlags f)
  | .mseqStep i =>
    let mark : Bool := i % 8 = 0 && (match (s.tile n).mx.mseq with | some m => m.cp < i | none => true)
    let s := (if mark then s.checkpoint n p.addr i else s).countTile n 6 1
    s.mapTile n (fun t => match t.mx.mseq with
      | some m => t.startStep p.seq p.addr p.slot p.due m.f m.param i
      | none => t)
  | .mseqEnd k =>
    ((s.checkpoint n p.addr k).tileRecord n 0x21 p.addr k).mapTile n (fun t => { t with mx := { t.mx with mseq := none } })

/-- Work that lands no exposed-latency effect of an operation (02 R42): that of the engine queues, and a LEASE request
(log entry 25). -/
def Act.engine : Act → Bool
  | .lease _ _ _ | .ldwbRead _ _ _ _ _ | .ldwbDone _ | .mseqStep _ | .mseqEnd _ | .strRead _ _ => true
  | _ => false

/-- The first pending effect of a tile taken out and performed. -/
def State.performHead (s : State) (n : Nat) (drain : Bool) : State :=
  match (s.tile n).pend with
  | [] => s
  | p :: r =>
    let s := s.mapTile n (fun t => { t.heal p.act.rewrites with
      pend := r, landedAt := if drain || p.rank = 4 || p.act.engine then t.landedAt else some p.due })
    s.perform n p drain

/-- Every pending effect in order, as though SCYC went on advancing (R111). Queued LDWB and MSEQ work, and the local
read of an STR, complete here as well where the trap is no forced stop (DESIGN CHOICE, log entry 56). What lands in a drain
has landed before the monitor's first bundle, and in no sc of its own. -/
def State.drainAll (s : State) (n : Nat) : (fuel : Nat) → State
  | 0 => s
  | fuel + 1 => if (s.tile n).pend = [] then s else (s.performHead n true).drainAll n fuel

/-- The row of the opcode table that a pending effect takes place in. -/
inductive Landing where
  | exposed | port | vault | sample | ldwb | pass1 | ready | step
deriving DecidableEq, Repr
def Act.landing : Act → Landing
  | .spadWr _ _ _ | .gather _ _ | .lddRead _ _ _ _ _ | .ldwbRead _ _ _ _ _ | .atomRead _ _ _ _ _ _ _
  | .atomClaim _ _ | .strRead _ _ => .port
  | .land _ _ _ _ _ _ => .vault
  | .sample _ _ _ _ _ => .sample
  | .ldwbDone _ => .ldwb
  | .pass1 _ _ _ => .pass1
  | .ready _ _ _ => .ready
  | .mseqStep _ | .mseqEnd _ => .step
  | _ => .exposed

/-- The landing that is due on a tile, if one is: the first pending effect in this sc; a late read waits for the tile's
turn to issue (09 R154). -/
def State.landingDue (s : State) (n : Nat) : Option Landing :=
  match (s.tile n).pend with
  | [] => none
  | p :: _ => if p.due ≤ s.now n && (p.rank < 5 || (s.tile n).turn) then some p.act.landing else none
/-- A landing row: the effect that is due takes place, if it is of the row's kind. -/
def State.land (s : State) (n : Nat) (k : Landing) : State :=
  if s.landingDue n = some k then s.performHead n false else s

end Sys2Proof.Machine
end

