-- ==== Sys2Proof/Machine/Fetch.lean ====
section
/-! DEFINITION. Fetching a bundle: resident pages (02 R45-R46), its words and masks (R31-R34), and the conditions of
its header (R35, 03 R75). -/
namespace Sys2Proof.Machine

/-- The class of a slot (02 R30). -/
def slotClass (k : Nat) : Cls :=
  if k = 0 then .c else if k ≤ 2 then .s else if k ≤ 5 then .v else if k = 6 then .f else if k ≤ 8 then .m
  else if k = 9 then .x else if k = 10 then .k else if k ≤ 12 then .d else .n

/-- The tag of a frame that holds a page of an image (27 R445). -/
def pageTag (image : BitVec 32) (page : Nat) : BitVec 64 := BitVec.ofNat 64 (2 ^ 63 + page * 2 ^ 32 + image.toNat)
/-- The frame that holds a page of an image (R45). -/
def Tile.frameOf (t : Tile) (image : BitVec 32) (page : Nat) : Option Nat :=
  (t.seq.ftags.find? (fun p => p.2 == pageTag image page)).map (·.1)
/-- The image of the plot a tile belongs to. -/
def State.imageOf (s : State) (n : Nat) : BitVec 32 := match s.plotOf n with | some pl => pl.tt.imageId | none => 0

/-- The word at a program address, or the image page that is missing (R46); the monitor store never misses (27 R435).
That the words past 0xFF_FFFF are read from address 0 on is the model's choice (DESIGN CHOICE, log entry 53). -/
def State.word (s : State) (n a : Nat) : Except Nat Word32 :=
  let t := s.tile n
  if t.trap.sup then .ok (sget 0 t.seq.mstore (a % 65536 / 4))
  else
    let a := a % 2 ^ 24
    match t.frameOf (s.imageOf n) (a / 4096) with
    | some f => .ok (sget 0 t.seq.istore (1024 * f + a % 4096 / 4))
    | none => .error (a / 4096)

/-! ### A fetched bundle -/

def Fetched.stop (f : Fetched) : Bool := f.hdr.getLsbD 31
def Fetched.tmpl (f : Fetched) : Nat := fld f.hdr 26 5
def Fetched.rep (f : Fetched) : Nat := fld f.hdr 18 8
def Fetched.drain (f : Fetched) : Bool := f.hdr.getLsbD 17
def Fetched.isEnd (f : Fetched) : Bool := f.hdr.getLsbD 16
def Fetched.has (f : Fetched) (k : Nat) : Bool := f.pres.testBit k
def Fetched.keeps (f : Fetched) (k : Nat) : Bool := f.keep.testBit k
/-- The address of the bundle that follows (R34), modulo 2^24 (DESIGN CHOICE, log entry 53). -/
def Fetched.next (f : Fetched) : Nat := (f.addr + 4 * f.words.length) % 2 ^ 24

/-- The operations of the slots from k on, read from address a. -/
def State.fetchOps (s : State) (n pres : Nat) : (fuel k a : Nat) →
    Except Nat (List (Nat × Word32 × Word32) × List Word32)
  | 0, _, _ => .ok ([], [])
  | fuel + 1, k, a =>
    if !pres.testBit k then s.fetchOps n pres fuel (k + 1) a
    else do
      let w1 ← s.word n a
      let two := opWords (slotClass k) (fld w1 24 7) = 2
      let w2 ← if two then s.word n (a + 4) else .ok 0
      let r ← s.fetchOps n pres fuel (k + 1) (if two then a + 8 else a + 4)
      .ok ((k, w1, w2) :: r.1, (if two then [w1, w2] else [w1]) ++ r.2)

/-- The bundle at an address, or its lowest missing page (R34, R46). -/
def State.fetch (s : State) (n a : Nat) : Except Nat Fetched := do
  let hdr ← s.word n a
  let tmpl := fld hdr 26 5
  let ext ← if tmpl = 31 && !hdr.getLsbD 31 then (s.word n (a + 4)).map some else .ok none
  let masks := if tmpl = 31 then (match ext with | some x => x.toNat | none => 0)
    else (sget 0 (s.tile n).seq.templates tmpl).toNat
  let pres := masks % 2 ^ 14
  let head := hdr :: (match ext with | some x => [x] | none => [])
  let r ← s.fetchOps n pres 14 0 (a + 4 * head.length)
  .ok { addr := a, hdr := hdr, ext := ext, pres := pres, keep := masks / 2 ^ 14 % 2 ^ 14, ops := r.1,
        words := head ++ r.2 }

/-- The address of the bundle that follows the one at an address, where it can be located (19 R347). -/
def State.follow (s : State) (n a : Nat) : Except Nat Nat := (s.fetch n a).map (·.next)

/-! ### Conditions of the header (R35, R75) -/

/-- The stop bit stands on the last word alone. -/
def stopsOk : List Word32 → Bool
  | [] => true
  | [w] => w.getLsbD 31
  | w :: r => !w.getLsbD 31 && stopsOk r
/-- The UNDEF reason that is reported with slot 0xF. -/
def Fetched.headReason (f : Fetched) : Option Nat :=
  lowest [(f.hdr.toNat % 2 ^ 16 != 0 || (match f.ext with | some x => fld x 28 3 != 0 | none => false), 1),
    (!stopsOk f.words, 4), (f.stop && f.tmpl != 31 && f.pres != 0, 5)]
/-- The slots that a mask condition names (R75). -/
def Fetched.maskBad (f : Fetched) (k : Nat) : Bool :=
  (f.has k && f.keeps k) || (k == 0 && f.keeps 0) || (k == 0 && f.has 0 && f.rep != 0) || (f.drain && f.keeps k)

end Sys2Proof.Machine
end

