-- ==== Sys2Proof/Machine/Ready.lean ====
section
/-! DEFINITION. Which of the work that runs beside the program may go on: the order of dynamic accesses (10 R191, 19
R357), the elements of a copy (08 R138), publishes under way (07 R121, 08 R143), and the requests that wait for a bank
(09 R158). -/
namespace Sys2Proof.Machine

/-! ### Dynamic accesses (10 R191, 19 R357) -/

/-- An access has performed at its target, or faulted. -/
def Dyn.performed (d : Dyn) : Bool := d.served || d.fault.isSome
/-- An access has reached its target: an LDR has read it, or a remote atomic has been performed there, and has its own
granule still to write. -/
def Dyn.atTarget (d : Dyn) : Bool := d.performed || (d.kind != .str && d.data.isSome)
/-- The access may be performed now, by the order of R191 and R357. -/
def State.dynMay (s : State) (n : Nat) (d : Dyn) : Bool :=
  let t := s.tile n
  let now := s.now n
  let earlier := t.dyn.filter (fun q => q.id < d.id)
  d.sc < now && !d.performed &&
  !(earlier.any (fun q => !q.atTarget && q.va.toNat / 64 == d.va.toNat / 64)) &&
  !(earlier.any (fun q => q.kind == .ldr && q.order.isSome)) &&
  (match d.kind with
    | .str => d.data.isSome && (d.order.isNone || (earlier = [] && d.sc + 4 < now))
    | _ => true) &&
  t.fences.all (fun f => d.id < f.1 || (f.2 + 4 < now && !(t.dyn.any (fun q => q.id < f.1))))

def State.findDyn (s : State) (n id : Nat) : Option Dyn := (s.tile n).dyn.find? (fun d => d.id == id)

/-! ### Elements (R138) -/

/-- Source and destination address of element i, in the order of the element loop. -/
def elemSrc (d : BitVec 512) (i : Nat) : BitVec 64 :=
  let e := i % descLen d
  let r := i / descLen d
  BitVec.ofInt 64 (descField d 0 64 + (r / descCnt1 d : Nat) * descSigned d 232 40 +
    (r % descCnt1 d : Nat) * descSigned d 192 40 + (e * descSsize d : Nat))
def elemDst (d : BitVec 512) (i : Nat) : BitVec 64 :=
  let e := i % descLen d
  let r := i / descLen d
  BitVec.ofInt 64 (descField d 64 64 + (r / descCnt1 d : Nat) * descSigned d 312 39 +
    (r % descCnt1 d : Nat) * descSigned d 272 40 + (e * descDsize d : Nat))
/-- Elements of the beat that begins with element i: it stays in one run and crosses no 64-byte boundary. -/
def beatLen (d : BitVec 512) (i : Nat) : Nat :=
  let run := descLen d - i % descLen d
  let s := (64 - (elemSrc d i).toNat % 64) / descSsize d
  let t := (64 - (elemDst d i).toNat % 64) / descDsize d
  Nat.max 1 (Nat.min run (Nat.min s t))

/-- Bytes a to a + len - 1, modulo 2^64, meet bytes lo to hi. -/
def spanMeets (a len lo hi : Nat) : Bool :=
  (a ≤ hi && lo < a + len) || (a ≤ hi + 2 ^ 64 && lo + 2 ^ 64 < a + len)
/-- A copy names a range: a byte of a source or a destination lies in it (07 R121). -/
def copyNames (d : BitVec 512) (e : RangeE) : Bool :=
  let lo := RangeE.vbase e * 4096
  let hi := RangeE.vlast e * 4096 + 4095
  (List.range (descCnt1 d * descCnt2 d)).any (fun r =>
    spanMeets (elemSrc d (r * descLen d)).toNat (descLen d * descSsize d) lo hi ||
    spanMeets (elemDst d (r * descLen d)).toNat (descLen d * descDsize d) lo hi)

/-- The range entry that a publish names, translated as a write by asynchronous work, or its fault (08 R143, R144). -/
def State.pubTarget (s : State) (c : Nat) (pl : Option Plot) (va : BitVec 64) : Except MemFault (Nat × RangeE) :=
  if va.toNat / 2 ^ 57 != 0 then .error (0x10, 0x64, 0)
  else if va.getLsbD 56 then
    match s.plotSpad pl va with
    | .fault k sub => .error (k, sub, 0)
    | _ => .error (0x11, 0x77, 0)
  else match rangeOf (s.ctx c).active va with
    | some (i, e) =>
      if !RangeE.w e then .error (0x11, 0x70, 0) else if !RangeE.twin e then .error (0x11, 0x77, 0)
      else match s.useRange 0 e va .write true with
        | .fault k sub => .error (k, sub, 0)
        | _ => .ok (i, e)
    | none =>
      match s.walk c va with
      | .leaf _ _ => .error (0x11, 0x77, 0)
      | .fault sub => .error (0x10, sub, 0)
/-- The ranges of a context that are being published. -/
def State.publishing (s : State) (c : Nat) : List RangeE :=
  (s.ctx c).pubs.filterMap (fun p => match s.pubTarget c (s.plotOf p.tile) p.va with
    | .ok (_, e) => some e
    | .error _ => none)

/-! ### Requests of a Shuttle -/

/-- The cluster of a request that is outstanding there beside its beats in flight. -/
def Req.cluster : Req → Option Nat
  | .dyn n _ | .back n _ | .wait n | .ovl n _ => some (clusterOf n)
  | .beat cl _ _ false => some cl
  | .beat _ _ _ true | .peer _ => none
/-- The tile whose own work a request is. -/
def Req.tile : Req → Option Nat
  | .dyn n _ | .back n _ | .wait n | .ovl n _ => some n
  | .beat _ _ _ _ | .peer _ => none
/-- The place of a request that waits for a bank. -/
def State.placeOf (s : State) (r : Req) : Option Nat := (s.places.find? (fun p => p.1 == r)).map (·.2)
/-- A request waits for a bank. -/
def State.queued (s : State) (r : Req) : Bool := (s.placeOf r).isSome
/-- 64-byte requests of a cluster that are outstanding (07 R128): beats in flight, and requests that wait for a bank. -/
def State.outstanding (s : State) (cl : Nat) : Nat :=
  (s.cluster cl).copies.foldl (fun m q => m + q.beats.length) 0 + (s.places.filter (fun p => p.1.cluster == some cl)).length
/-- The requests of a tile that leaves its work are forgotten. -/
def State.forget (s : State) (p : Req → Bool) : State := { s with places := s.places.filter (fun q => !p q.1) }
/-- The copies of a tile that has ended are suspended: it has taken a trap, or its plot has faulted or takes a forced stop
(08 R150, 27 R440). -/
def State.quiet (s : State) (n : Nat) : Bool :=
  (s.tile n).seq.ended && ((s.tile n).trap.first.isSome || (match (s.tile n).plot, s.plotOf n with
    | some k, some pl => pl.ended.isSome || (s.tilesOf k pl).any (fun m => (s.tile m).trap.first.isSome)
    | _, _ => false))
/-- A copy's next beat may start now. -/
def State.beatMay (s : State) (cl : Nat) (c : Copy) : Bool :=
  let g := (elemDst c.desc c.next).toNat / 64
  !c.cancelled && !c.faulted && !c.suspended && c.next < descTotal c.desc &&
  (match c.tile with
    | some n => c.sc < s.now n && !s.quiet n
    | none => true) &&
  (s.queued (.beat cl c.age c.next false) || s.outstanding cl < 256) &&
  !(c.beats.any (fun b => b.dst.toNat / 64 == g)) &&
  !(c.next = 0 && (s.publishing c.ctx).any (fun e => copyNames c.desc e))


/-- The request still waits: its access or its beat is there and may go on. -/
def State.wants (s : State) : Req → Bool
  | .dyn n id => (match s.findDyn n id with | some d => s.dynMay n d | none => false)
  | .back n id => (match s.findDyn n id with | some d => !d.performed && d.data.isSome | none => false)
  | .wait n => (match (s.tile n).seq.wait with
    | .waita _ _ _ _ _ | .hold _ (.word _ _ _ _) _ => true
    | _ => false)
  | .ovl n line => (match (s.tile n).seq.ovls with | o :: _ => o.bytes.length = 64 * line | [] => false)
  | .peer id => (afind s.peerQ id).isSome
  | .beat cl age first write =>
    (match (s.cluster cl).copies.find? (fun c => c.age == age) with
      | some c => if write then c.beats.any (fun b => b.first == first) else c.next == first && s.beatMay cl c
      | none => false)
/-- An older request waits for the bank (09 R158). -/
def State.olderWaits (s : State) (n bank : Nat) (r : Req) : Bool :=
  ((s.tile n).bankQ.takeWhile (· != (r, bank))).any (fun p => p.2 == bank && s.wants p.1)

end Sys2Proof.Machine
end

