-- ==== Sys2Proof/Machine/Ops.lean ====
section
/-! DEFINITION. Taking a trap (27 R430-R440) and returning from one (R437), and how a step of one operation answers. -/
namespace Sys2Proof.Machine

/-- The traps that the program's own operations raise: those that send a plot stop (27 R439). -/
def ownTrap (code : BitVec 8) : Bool := !(0x16 ≤ code.toNat && code.toNat ≤ 0x1B)

/-- TVAL of PSTOP (27 R433). -/
def pstopVal (cause : BitVec 8) (pc ox oy : Nat) : BitVec 64 :=
  BitVec.ofNat 64 (cause.toNat * 2 ^ 40 + pc % 2 ^ 24 * 2 ^ 16 + ox * 2 ^ 10 + oy * 2 ^ 5)

/-- The plot stop that a trap sends to the other tiles of the plot: it arrives after 8 sc, at once in a paused plot
(R439). -/
def State.sendStop (s : State) (n : Nat) (code : BitVec 8) (pc : Nat) : State :=
  match s.plotOf n with
  | none => s
  | some pl =>
    let t := s.tile n
    let at_ := if pl.st = .paused then pl.scyc else pl.scyc + 8
    -- the plot ends FAULTED, and its lease is returned at once (28 R465)
    let s := match t.plot with
      | some k => if 1 < pl.w * pl.h || t.trap.halted then s.endLease k 0 else s
      | none => s
    -- a tile that has left the plot takes no part in its stop
    (pl.tileList.filter (fun m => m != n && (s.tile m).plot == t.plot)).foldl (fun s m => s.mapTile m (fun q =>
      if q.trap.sup || q.trap.halted || q.seq.ended || q.trap.stopAt.isSome then q
      else { q with trap := { q.trap with stopAt := some (at_, pstopVal code pc t.lx t.ly) } })) s

/-- What a trap writes into its tile after the drain (R434): the trap registers, the shadows, supervisor mode and the
monitor's entry address; the records of the vault stay as the sc before left them (04 R101), and every reserved port has
been used (06 R111, 09 R156). -/
def Tile.enterMonitor (t : Tile) (tr : Trap) (pc rep now : Nat) : Tile :=
  { t with
    trap := { t.trap with
      tcause := BitVec.ofNat 64 (tr.skip.toNat * 2 ^ 16 + rep % 256 * 2 ^ 8 + tr.code.toNat),
      tpc := BitVec.ofNat 64 (pc % 2 ^ 24), tval := tr.tval, tscyc := BitVec.ofNat 64 now, sup := true,
      shadowRe := t.seq.reissue, shadowLoops := t.seq.loops, pending := [], stopAt := none,
      first := t.trap.first.or (some (tr.code, now, pc)) },
    seq := { t.seq with pc := t.trap.evec.toNat % 2 ^ 24, rep := 0, reissue := [], loops := [], wait := .none,
                        skip := false, ctl := .none },
    bars := aset t.bars 48 Bar.reset,
    vault := t.vault.revert, ports := [], turn := true }
/-- A trap in supervisor mode halts the tile; its code ends the plot (R436). -/
def Tile.halt (t : Tile) (tr : Trap) (pc now : Nat) : Tile :=
  { t with
    trap := { t.trap with halted := true, pending := [], stopAt := none,
                          first := some (tr.code, (match t.trap.first with | some f => f.2.1 | none => now), pc) },
    seq := { t.seq with wait := .none, ended := true, ctl := .none }, ports := [], turn := true }

/-- A trap taken by tile n before issue rep of the bundle at pc: the drain of R111, which leaves the matrix engine idle
(DESIGN CHOICE, log entry 56), then the monitor (R434), and the plot stop of R439. -/
def State.takeTrap (s : State) (n : Nat) (tr : Trap) (pc rep : Nat) : State :=
  let s := (((s.drainAll n 200000).forget (· == .wait n)).mapTile n (fun t => { t with mx := Mx.reset })).countTile n 10 1
  let s := if tr.code = 0x0C && 0x43 ≤ tr.tval.toNat % 256 && tr.tval.toNat % 256 ≤ 0x46 then
      s.tileRecord n 0x23 pc (tr.tval.toNat % 256) else s
  let now := s.now n
  let t := s.tile n
  if t.trap.sup then (s.setTile n (t.halt tr pc now)).sendStop n tr.code pc
  else
    let s' := s.setTile n (t.enterMonitor tr pc rep now)
    if ownTrap tr.code then s'.sendStop n tr.code pc else s'

/-- The return from a trap (R437): user mode, the shadows restored, and issue REPIDX of the bundle at TPC next
(DEDUCED, log entry 21). -/
def Tile.returnTrap (t : Tile) : Tile :=
  { t with
    trap := { t.trap with sup := false, first := none, shadowRe := [], shadowLoops := [] },
    seq := { t.seq with pc := t.trap.tpc.toNat % 2 ^ 24, rep := t.trap.tcause.toNat / 2 ^ 8 % 256,
                        reissue := t.trap.shadowRe, loops := t.trap.shadowLoops,
                        skip := t.trap.tcause.getLsbD 16, wait := .none } }

/-- The outcome of a row that is a whole step: nothing runs once the module has powered down (28 R471). -/
def act (f : State → State) (s : State) : Host.Outcome State Fault Refusal :=
  if s.down then .fault .poweredDown else .next (f s)

/-- The outcome of issuing one operation: its effects begun, or its trap taken at its bundle. -/
def settle (i : Issue) (s : State) : Host.Outcome State Fault Refusal :=
  act (fun s => match i s with
    | .ok s' => s'.mapTile s.cur.tile Tile.nextSeq
    | .error tr => s.takeTrap s.cur.tile tr s.cur.addr s.cur.idx) s

end Sys2Proof.Machine
end

