-- ==== Sys2Proof/Machine/Control.lean ====
section
/-! DEFINITION. Issuing the C operations (19_control_flow.md R342-R360): what each checks, what it does at once, and
what it asks of the sequencer. -/
namespace Sys2Proof.Machine

/-- An operation that asks something of its sequencer. -/
def askCtl (c : Ctl) (s : State) : State := s.mapTile s.cur.tile (fun t => t.mapSeq (fun q => { q with ctl := c }))
/-- Words of the bundle being issued. -/
def Cursor.len (c : Cursor) : Nat := (c.next + 2 ^ 24 - c.addr) % 2 ^ 24 / 4
/-- A byte address a number of words from a bundle's header (R346). -/
def wordsFrom (addr : Nat) (off : BitVec 24) : Nat := (BitVec.ofNat 24 addr + (off <<< 2)).toNat

/-! ### Branches and calls (R346) -/

/-- lk is s63; a call writes the address of the bundle that follows at t + 1. -/
def writeLink : Issue := fun s =>
  .ok (s.mapTile s.cur.tile (fun t => t.push s.env (s.env.now + 1) (.scalar false 63 (BitVec.ofNat 64 s.cur.next))))
/-- A jump to the address in a register. -/
def jumpTo (a : BitVec 64) : Issue := fun s =>
  if a.toNat < 2 ^ 24 && a.toNat % 4 = 0 then .ok (askCtl (.goto a.toNat) s) else .error (alignf s.env.slot a.toNat)

def issueBr (off : BitVec 24) : Issue := fun s => .ok (askCtl (.goto (wordsFrom s.cur.addr off)) s)
def issueBrp (p : BitVec 4) (neg : Bool) (off : BitVec 19) : Issue := fun s =>
  .ok (if (s.tile s.cur.tile).rp p != neg then askCtl (.goto (wordsFrom s.cur.addr (off.signExtend 24))) s else s)
def issueCall (off : BitVec 24) : Issue := fun s => do
  let s ← writeLink s
  .ok (askCtl (.goto (wordsFrom s.cur.addr off)) s)
def issueRet : Issue := fun s => jumpTo ((s.tile s.cur.tile).rs 63) s
def issueJmps (a : BitVec 6) (link : Bool) : Issue := fun s => do
  let s ← jumpTo ((s.tile s.cur.tile).rs a) s
  if link then writeLink s else .ok s

/-! ### Loops (R341, R347, R348) -/

def loopf (e : Env) (t : Tile) (sub : Nat) : Trap := trapAt 0x13 e.addr sub t.seq.loops.length
/-- The checks of a loop head. -/
def loopCheck (fin : BitVec 12) (pushes : Bool) (s : State) : Except Trap Unit := do
  let e := s.env
  let t := s.tile e.n
  need (s.cur.len ≤ fin.toNat) (undef 1 e.slot)
  need (!(pushes && 6 ≤ t.seq.loops.length)) (loopf e t 0xB0)
  need (!((t.seq.loops.head?.map (·.fin)) == some e.addr)) (loopf e t 0xB2)
/-- The end bundle of a loop head. -/
def loopEnd (s : State) (fin : BitVec 12) : Nat := wordsFrom s.cur.addr (fin.setWidth 24)
def pushLoop (fin : BitVec 12) (count : BitVec 32) (stream : Option (Dir × BitVec 4 × BitVec 4 × Nat)) : Issue :=
  fun s => do
    loopCheck fin true s
    .ok (askCtl (.push ⟨s.cur.next, loopEnd s fin, count, 0, stream⟩) s)

def issueLoop (cnt fin : BitVec 12) : Issue := pushLoop fin (BitVec.ofNat 32 (cnt.toNat + 1)) none
def issueLoopv (a : BitVec 6) (fin : BitVec 12) : Issue := fun s =>
  let c := ((s.tile s.cur.tile).rs a).setWidth 32
  if c = 0 then do
    loopCheck fin false s
    .ok (askCtl (.after (loopEnd s fin) false) s)
  else pushLoop fin c none s
def Age.sc : Age → Nat
  | .h1 => 1
  | .h5 => 5
  | .h640 => 640
def issueLoops (dir : Dir) (lane ex : BitVec 4) (age : Age) (fin : BitVec 12) : Issue :=
  fun s => do
    let s ← pushLoop fin 0 (some (dir, lane, ex, Age.sc age)) s
    .ok (s.mapTile s.cur.tile (Tile.push s.env (s.env.now + 1) (.pred ex.toNat false)))
def issueLeave : Issue := fun s =>
  let t := s.tile s.cur.tile
  match t.seq.loops with
  | [] => .error (loopf s.env t 0xB1)
  | top :: _ => .ok (askCtl (.after top.fin true) s)

/-! ### Walkers (R349) -/

/-- Rank and number of tiles of a scope. -/
def walkPlace (s : State) (n : Nat) (sc : BScope) : Nat × Nat :=
  let t := s.tile n
  match s.plotOf n, sc with
  | some pl, .bed =>
    let i := instOf pl t.lx t.ly { Bar.reset with
      scope := 1, bedw := BitVec.ofNat 3 pl.tt.bedw, bedh := BitVec.ofNat 3 pl.tt.bedh }
    (i.rank t.lx t.ly, i.w * i.h)
  | some pl, .plot => (t.ly * pl.w + t.lx, pl.w * pl.h)
  | _, _ => (0, 1)
/-- The walker record of an index; one that is not defined has the total 0. -/
def walkRec (s : State) (n i : Nat) : BitVec 128 :=
  match s.plotOf n with
  | some pl => (pl.tt.walks[i]?).getD 0
  | none => 0
/-- Iteration q of a record: its four indices, or nothing beyond the total. -/
def walkStep (r : BitVec 128) (q : Nat) : Option (Nat × Nat × Nat × Nat) :=
  let c (k : Nat) : Nat := part 32 r.toNat k
  if q < c 0 * c 1 * c 2 * c 3 then
    some (q % c 0, q / c 0 % c 1, q / (c 0 * c 1) % c 2, q / (c 0 * c 1 * c 2))
  else none

def issueWalkn (p w : BitVec 4) (sc : BScope) : Issue := fun s =>
  let e := s.env
  let (m, k) := walkPlace s e.n sc
  let r := walkRec s e.n w.toNat
  .ok (s.mapTile e.n (fun t =>
    let j := sget 0 t.seq.walk w.toNat
    let t := t.mapSeq (fun q => { q with walk := sset 0 q.walk w.toNat (j + 1) })
    let due := e.now + 1
    match walkStep r (m + j.toNat * k) with
    | some (a, b, c, d) =>
      t.pushAll e due [.scalar false 56 (BitVec.ofNat 64 a), .scalar false 57 (BitVec.ofNat 64 b),
        .scalar false 58 (BitVec.ofNat 64 c), .scalar false 59 (BitVec.ofNat 64 d), .pred p.toNat true]
    | none => t.push e due (.pred p.toNat false)))

/-! ### Waits and hold points (R350, R352-R354) -/

def issueAlign (target : BitVec 48) : Issue := fun s =>
  let e := s.env
  if target.toNat ≤ e.now then .error (trapAt 0x0B e.addr 0xA4 target.toNat)
  else .ok (askCtl (.wait (.align target.toNat)) s)
/-- The hold-table entry of an index; one at or beyond NHOLD reads as zero (23 R393). -/
def holdEntry (s : State) (n i : Nat) : HoldEnt :=
  match s.plotOf n with
  | some pl => (pl.tt.holds[i]?).getD ⟨.none, 0, false⟩
  | none => ⟨.none, 0, false⟩
def issueHold (i : BitVec 6) : Issue := fun s =>
  let e := s.env
  .ok (askCtl (.wait (.hold i.toNat (holdEntry s e.n i.toNat).cond e.addr)) s)
def issueWaita (a b : BitVec 6) (cmp : Cmp) (w64 hm : Bool) (h : BitVec 6) (off : BitVec 20) : Issue := fun s =>
  let e := s.env
  let t := s.tile e.n
  let va := t.rs a + off.signExtend 64
  let x := if w64 then t.rs b else t.rs b &&& 0xFFFFFFFF
  if va.toNat % (if w64 then 8 else 4) != 0 then .error (alignf e.slot va.toNat)
  else .ok (askCtl (.wait (if hm then .hold h.toNat (.word va cmp w64 x) e.addr else .waita va cmp w64 x e.addr)) s)
def issueBarw (hm ph : Bool) (h bar : BitVec 6) : Issue := fun s =>
  let e := s.env
  let b := (s.tile e.n).barOf bar
  .ok (askCtl (.wait (if hm then .hold h.toNat (.bar b ph) e.addr else .barw b ph e.addr)) s)

/-! ### Barriers (R351) -/

/-- A barrier governs a shared window of the tile. -/
def Tile.governs (t : Tile) (b : Nat) : Bool := t.wins.any (fun w => w.shared && w.bar == b)
def issueBari (bar : BitVec 6) (sc : BScope) (arr : BitVec 16) (bedw bedh : BitVec 3) (b : BitVec 6) : Issue := fun s =>
  let e := s.env
  let t := s.tile e.n
  let k := t.barOf bar
  let f := bariF sc arr bedw bedh ((t.rs b).setWidth 32)
  let (w, h) := match s.plotOf e.n with | some pl => (pl.w, pl.h) | none => (1, 1)
  if (sc = .bed && (w < 2 ^ bedw.toNat || h < 2 ^ bedh.toNat)) || (f.changes (t.bar k) && t.governs k) then
    .error (rescombo 3 e.slot)
  else .ok (s.mapTile e.n (fun t => t.push e (e.now + 1) (.bari k sc arr bedw bedh ((t.rs b).setWidth 32))))
def issueBara (bar : BitVec 6) : Issue := fun s =>
  let e := s.env
  .ok (s.count e.n ((s.tile e.n).barOf bar) 1 0 fNone 0 0)

/-! ### Other control operations (R357-R360) -/

def issueFence (_sc : Scope) : Issue := fun s => .ok (askCtl .fence s)
def issueTrap (code : BitVec 16) : Issue := fun _ => .error ⟨0x14, code.setWidth 64, false⟩
def issueSysc (code : BitVec 16) : Issue := fun _ => .error ⟨0x15, code.setWidth 64, false⟩
def issueEret : Issue := fun s =>
  if (s.tile s.cur.tile).trap.sup then .ok (askCtl .eret s) else .error (priv s.env.slot)
def issueLease (pulses : BitVec 5) (dur : BitVec 19) (cap : BitVec 20) : Issue := onTile fun e t =>
  .ok (t.push e (e.now + 1) (.lease pulses.toNat dur.toNat cap.toNat))
/-- The plot pulse of its sc on which the slot group of slot C issues (28 R457). -/
def State.markPulse (s : State) (n : Nat) : Nat :=
  match s.plotOf n with | some pl => if pl.split = 2 then 3 else 0 | none => 0
/-- A MARK: its record is written as its slot group issues, with the scalar latched on pulse 0 (28 R457, 29 R477). -/
def State.mark (s : State) (n tag v : Nat) : State :=
  if s.markPulse n = 0 then s.tileRecord n 0x50 tag v
  else s.mapTile n (fun t => { t with marks := t.marks ++ [(s.markPulse n, tag, v)] })
/-- The slot groups of a tile up to a pulse of the sc have issued: the records of its MARKs, and its refreshes. -/
def State.flushMarks (s : State) (n g : Nat) : State :=
  ((s.tile n).marks.filter (fun m => m.1 ≤ g)).foldl (fun s m => s.tileRecord n 0x50 m.2.1 m.2.2)
    (s.mapTile n (fun t => { t with
      marks := t.marks.filter (fun m => !(m.1 ≤ g))
      vault := if g < 2 then t.vault else t.vault.flushRef s.mp }))
def issueMark (a : BitVec 6) (tag : BitVec 16) : Issue := fun s =>
  .ok (s.mark s.cur.tile tag.toNat ((s.tile s.cur.tile).rs a).toNat)
def issueSavept (item : BitVec 4) (a : BitVec 6) : Issue := onTile fun e t =>
  .ok (t.push e (e.now + 1) (.savept item.toNat ((t.rs a).setWidth 32)))

/-- Code pages of the image that runs on a tile. -/
def State.codePages (s : State) (n : Nat) : Nat := match s.plotOf n with | some pl => pl.tt.npage | none => 0
def issueOvl (page : BitVec 12) (frame : BitVec 5) (bar : BitVec 6) : Issue := fun s =>
  let e := s.env
  let img := s.imageOf e.n
  let pages := s.codePages e.n
  .ok (s.mapTile e.n (fun t =>
    let b := t.barOf bar
    if (t.frameOf img page.toNat).isSome then t.push e (e.now + 1) (.count b 1 4096 0 0)
    else
      let t := t.mapSeq (fun q => { q with ftags := sset 0 q.ftags frame.toNat 0 })
      if pages ≤ page.toNat then t.push e (e.now + 1) (.count b 1 0 0x04 0xCB)
      else t.mapSeq (fun q =>
        { q with ovls := q.ovls ++ [⟨page.toNat, frame.toNat, b, e.addr, t.dynNo, []⟩] })))

/-! ### What the sequencer is asked for -/

def Ctl.transfers : Ctl → Bool
  | .goto _ | .after _ _ | .eret => true
  | _ => false
/-- What the C operation asked for, done on its tile. -/
def Tile.applyCtl (t : Tile) (now : Nat) : Tile :=
  let seq (f : Seq → Seq) : Tile := t.mapSeq (fun q => f { q with ctl := .none })
  match t.seq.ctl with
  | .none => seq id
  | .goto a => seq (fun q => { q with pc := a })
  | .push e => seq (fun q => { q with loops := e :: q.loops })
  | .after a pop => seq (fun q => { q with pc := a, skip := true, loops := if pop then q.loops.tail else q.loops })
  | .wait w => seq (fun q => { q with wait := w })
  | .eret => (seq id).returnTrap
  | .fence => { seq id with fences := t.fences ++ [(t.dynNo, now)] }
/-- What a C operation asks of the sequencer takes place as it issues (DEDUCED, log entry 25). -/
def State.applyCtl (s : State) (n : Nat) : State := s.mapTile n (fun t => t.applyCtl (s.now n))

/-- The outcome of issuing one C operation, with what it asks of the sequencer. -/
def settleC (i : Issue) (s : State) : Host.Outcome State Fault Refusal :=
  settle (fun s => (i (askCtl .none s)).map (fun s' => s'.applyCtl s.cur.tile)) s

end Sys2Proof.Machine
end

