-- ==== Sys2Proof/Machine/Issue.lean ====
section
/-! DEFINITION. The next re-issue of an operation (02 R37-R39 with the steps of each class), and the issuing of any
operation. -/
namespace Sys2Proof.Machine

/-! ### Steps, with a mark where a stepped field leaves its range (REASON 0x6) -/

def stepArith (P : Nat) (f : VArith) : Stepped VArith := do
  let d ← stepView P f.dst (f.rstep.getLsbD 2)
  let a ← stepView P f.a (f.rstep.getLsbD 1)
  let b ← stepView P f.b (f.rstep.getLsbD 0)
  pure { f with dst := d, a := a, b := b }
def stepBin (P : Nat) (f : VBin) : Stepped VBin := do
  let d ← stepView P f.dst (f.rstep.getLsbD 2)
  let a ← stepView P f.a (f.rstep.getLsbD 1)
  let b ← stepView P f.b (f.rstep.getLsbD 0)
  pure { f with dst := d, a := a, b := b }
/-- The destination and the first source view stepped. -/
def stepTwo (P : Nat) (dst a : View) (r : BitVec 3) : Stepped (View × View) := do
  let d ← stepView P dst (r.getLsbD 2)
  let a ← stepView P a (r.getLsbD 1)
  pure (d, a)
def stepUn (P : Nat) (f : VUn) : Stepped VUn := (fun p => { f with dst := p.1, a := p.2 }) <$> (stepTwo P f.dst f.a f.rstep)
def stepCvt (P : Nat) (f : VCvt) : Stepped VCvt := (fun p => { f with dst := p.1, a := p.2 }) <$> (stepTwo P f.dst f.a f.rstep)
def stepRed (P : Nat) (f : VRed) : Stepped VRed := (fun p => { f with dst := p.1, a := p.2 }) <$> (stepTwo P f.dst f.a f.rstep)
def stepFun (P : Nat) (f : FUn) : Stepped FUn := (fun p => { f with dst := p.1, a := p.2 }) <$> (stepTwo P f.dst f.a f.rstep)
def stepShift (P : Nat) (f : VShift) : Stepped VShift := do
  let p ← stepTwo P f.dst f.a f.rstep
  let amt ← match f.amt with
    | .reg s => Amt.reg <$> (stepScalar s (f.rstep.getLsbD 0))
    | .imm n => pure (.imm n)
  pure { f with dst := p.1, a := p.2, amt := amt }
def stepTri (f : DTri) : Stepped DTri := do
  let d ← stepReg 64 f.d (f.rstep.getLsbD 2)
  let a ← stepReg 64 f.a (f.rstep.getLsbD 1)
  let b ← stepReg 64 f.b (f.rstep.getLsbD 0)
  pure { f with d := d, a := a, b := b }
def stepPair (f : DPair) : Stepped DPair := do
  let d ← stepReg 64 f.d (f.rstep.getLsbD 2)
  let a ← stepReg 64 f.a (f.rstep.getLsbD 1)
  pure { f with d := d, a := a }
def stepDiv (f : SDiv) : Stepped SDiv := do
  let d ← stepScalar f.d (f.rstep.getLsbD 2)
  let a ← stepScalar f.a (f.rstep.getLsbD 1)
  let b ← stepScalar f.b (f.rstep.getLsbD 0)
  pure { f with d := d, a := a, b := b }

/-- SA and OFF of a static memory operation; OFF is unsigned (10 R180). -/
def stepM (unit : Nat) (m : MAddr) : Stepped MAddr := do
  let sa ← stepScalar m.sa (m.rstep.getLsbD 2)
  let off ← stepNat m.off (m.astep.toInt * unit) (2 ^ 20)
  pure { m with sa := sa, off := off }
/-- SA and OFF of a dynamic one; OFF is signed. -/
def stepMDyn (unit : Nat) (m : MAddr) : Stepped MAddr := do
  let sa ← stepScalar m.sa (m.rstep.getLsbD 2)
  let off ← stepSigned m.off (m.astep.toInt * unit)
  pure { m with sa := sa, off := off }
/-- A view operand and the address of a memory operation. -/
def stepMView (P unit : Nat) (v : View) (m : MAddr) (f : View → MAddr → Instr) : Stepped Instr := do
  let v' ← stepView P v (m.rstep.getLsbD 1)
  let m' ← stepM unit m
  pure (f v' m')
/-- One register operand and the address. -/
def stepMReg (unit : Nat) (r : BitVec 6) (m : MAddr) (f : BitVec 6 → MAddr → Instr) : Stepped Instr := do
  let r' ← stepScalar r (m.rstep.getLsbD 1)
  let m' ← stepM unit m
  pure (f r' m')
/-- Two scalars and the address. -/
def stepMTwo (unit : Nat) (sb sc : BitVec 6) (m : MAddr) (f : BitVec 6 → BitVec 6 → MAddr → Instr) : Stepped Instr := do
  let sb' ← stepScalar sb (m.rstep.getLsbD 1)
  let sc' ← stepScalar sc (m.rstep.getLsbD 0)
  let m' ← stepM unit m
  pure (f sb' sc' m')
/-- A scalar, a barrier and the address of a dynamic operation. -/
def stepMBar (unit : Nat) (sb bar : BitVec 6) (m : MAddr) (f : BitVec 6 → BitVec 6 → MAddr → Instr) : Stepped Instr := do
  let sb' ← stepScalar sb (m.rstep.getLsbD 1)
  let bar' ← stepBar bar (m.rstep.getLsbD 0)
  let m' ← stepMDyn unit m
  pure (f sb' bar' m')
def wBytes (w64 : Bool) : Nat := if w64 then 8 else 4
def stepAtom (w64 : Bool) (sb sc : BitVec 6) (m : MAddr) (f : Bool → BitVec 6 → BitVec 6 → MAddr → Instr) :
    Stepped Instr := stepMTwo (wBytes w64) sb sc m (f w64)
def stepAtomRem (w64 : Bool) (sb bar : BitVec 6) (m : MAddr) (f : Bool → BitVec 6 → BitVec 6 → MAddr → Instr) :
    Stepped Instr := stepMBar (wBytes w64) sb bar m (f w64)

/-- MMA and MMAZ (17 R327). -/
def stepMma (P : Nat) (f : XMma) : Stepped XMma := do
  let acc ← stepAcc f.acc (f.rstep.getLsbD 2)
  let av ← stepView P f.av (f.rstep.getLsbD 1)
  let ksel ← stepReg 16 f.ksel f.kstep
  let goff ← stepNat f.goff (if f.gstep then blockSize f.fb f.dmode else 0) 1024
  pure { f with acc := acc, av := av, ksel := ksel, goff := goff }
def stepSeq (P : Nat) (f : XSeq) : Stepped XSeq := do
  let acc ← stepAcc f.acc (f.rstep.getLsbD 2)
  let av ← stepView P f.av (f.rstep.getLsbD 1)
  pure { f with acc := acc, av := av }
def stepMove (P : Nat) (f : XMove) : Stepped XMove := do
  let acc ← stepAcc f.acc (f.rstep.getLsbD 2)
  let av ← stepView P f.av (f.rstep.getLsbD 1)
  let m ← stepReg 64 f.mrow f.mstep
  pure { f with acc := acc, av := av, mrow := m }

/-- Column commands (05 R110). -/
def stepCol (f : DCol) : Stepped DCol := do
  let col ← stepNat f.col f.step.toInt 32
  let sp ← stepNat f.spad f.sstep.toInt 12288
  pure { f with col := col, spad := sp }

/-- Lane and operand of an N operation (11 R206). -/
def stepGrp (g : NGrp) : Stepped NGrp := (fun l => { g with lane := l }) <$> (stepReg 16 g.lane (g.rstep.getLsbD 2))
def stepOpnd (P : Nat) (g : NGrp) : NOpnd → Stepped NOpnd
  | .row v => NOpnd.row <$> (stepView P v (g.rstep.getLsbD 1))
  | .scalar r => NOpnd.scalar <$> (stepScalar r (g.rstep.getLsbD 1))
  | .spad r => NOpnd.spad <$> (stepScalar r (g.rstep.getLsbD 1))
  | .none => pure .none
/-- The stamp term of a tap issued again after some sc (11 R213). -/
def stepStamp (dt : Nat) : Stamp → Stamp
  | .abs n => .abs (n + BitVec.ofNat 16 dt)
  | .reg k n => .reg k (n + BitVec.ofNat 16 dt)
  | .age n => .age n

/-- The operation as it issues again dt sc after its last issue, on a tile with P panels. -/
def stepOp (P dt : Nat) : Instr → Stepped Instr
  | .vadd f => .vadd <$> (stepArith P f)
  | .vsub f => .vsub <$> (stepArith P f)
  | .vmul f => .vmul <$> (stepArith P f)
  | .vfma f => .vfma <$> (stepArith P f)
  | .vmin f => .vmin <$> (stepBin P f)
  | .vmax f => .vmax <$> (stepBin P f)
  | .vabs f => .vabs <$> (stepUn P f)
  | .vneg f => .vneg <$> (stepUn P f)
  | .vand f => .vand <$> (stepBin P f)
  | .vor f => .vor <$> (stepBin P f)
  | .vxor f => .vxor <$> (stepBin P f)
  | .vshl f => .vshl <$> (stepBin P f)
  | .vshr f => .vshr <$> (stepBin P f)
  | .vsar f => .vsar <$> (stepBin P f)
  | .vsel f => .vsel <$> (stepBin P f)
  | .vcmpeq f => .vcmpeq <$> (stepBin P f)
  | .vcmplt f => .vcmplt <$> (stepBin P f)
  | .vcmple f => .vcmple <$> (stepBin P f)
  | .vmov fmt d a r => (fun p => .vmov fmt p.1 p.2 r) <$> (stepTwo P d a r)
  | .vbcs fmt d a r => do
    let d ← stepView P d (r.getLsbD 2)
    let a ← stepScalar a (r.getLsbD 1)
    pure (.vbcs fmt d a r)
  | .viota fmt d a b r => do
    let d ← stepView P d (r.getLsbD 2)
    let a ← stepScalar a (r.getLsbD 1)
    let b ← stepScalar b (r.getLsbD 0)
    pure (.viota fmt d a b r)
  | .vmadw fmt sat sel d a b r => do
    let p ← stepTwo P d a r
    let b ← stepView P b (r.getLsbD 0)
    pure (.vmadw fmt sat sel p.1 p.2 b r)
  | .vmulh f => .vmulh <$> (stepBin P f)
  | .vcvt f => .vcvt <$> (stepCvt P f)
  | .vcvtef f => .vcvtef <$> (stepCvt P f)
  | .vsacc fmt rm sat uni d a b r => do
    let p ← stepTwo P d a r
    let b ← stepView P b (r.getLsbD 0)
    pure (.vsacc fmt rm sat uni p.1 p.2 b r)
  | .vrng fmt d r => (fun d => .vrng fmt d r) <$> (stepView P d (r.getLsbD 2))
  | .vrotr f => .vrotr <$> (stepShift P f)
  | .vrotc f => .vrotc <$> (stepShift P f)
  | .vbcr f => .vbcr <$> (stepShift P f)
  | .vbcc f => .vbcc <$> (stepShift P f)
  | .vredr f => .vredr <$> (stepRed P f)
  | .vredc f => .vredc <$> (stepRed P f)
  | .vshfr f => .vshfr <$> (stepShift P f)
  | .vshfc f => .vshfc <$> (stepShift P f)
  | .vtrn fmt d a r => (fun p => .vtrn fmt p.1 p.2 r) <$> (stepTwo P d a r)
  | .vpart fmt d a b r => do
    let p ← stepTwo P d a r
    let b ← stepScalar b (r.getLsbD 0)
    pure (.vpart fmt p.1 p.2 b r)
  | .vcnt fmt d a r => do
    let d ← stepScalar d (r.getLsbD 2)
    let a ← stepView P a (r.getLsbD 1)
    pure (.vcnt fmt d a r)
  | .vargm fmt mn d a r => do
    let d ← stepScalar d (r.getLsbD 2)
    let a ← stepView P a (r.getLsbD 1)
    pure (.vargm fmt mn d a r)
  | .dnorm fmt g d a r => do
    let d ← stepReg 64 d (r.getLsbD 2)
    let a ← stepView P a (r.getLsbD 1)
    pure (.dnorm fmt g d a r)
  | .dcvt fmt g d a r => do
    let d ← stepView P d (r.getLsbD 2)
    let a ← stepReg 64 a (r.getLsbD 1)
    pure (.dcvt fmt g d a r)
  | .ddot f => .ddot <$> (stepTri f)
  | .ddotn f => .ddotn <$> (stepTri f)
  | .dscl f => .dscl <$> (stepPair f)
  | .dneg f => .dneg <$> (stepPair f)
  | .dadd f => .dadd <$> (stepTri f)
  | .dsub f => .dsub <$> (stepTri f)
  | .dmix f => .dmix <$> (stepTri f)
  | .dproj f => .dproj <$> (stepTri f)
  | .dsim g d a b r => do
    let d ← stepView P d (r.getLsbD 2)
    let a ← stepReg 64 a (r.getLsbD 1)
    let b ← stepReg 64 b (r.getLsbD 0)
    pure (.dsim g d a b r)
  | .dzt g p a r => do
    let p ← stepPred p (r.getLsbD 2)
    let a ← stepReg 64 a (r.getLsbD 1)
    pure (.dzt g p a r)
  | .dmov f => .dmov <$> (stepPair f)
  | .dgetn f => .dgetn <$> (stepPair f)
  | .dsetn f => .dsetn <$> (stepPair f)
  | .frcp f => .frcp <$> (stepFun P f)
  | .frsq f => .frsq <$> (stepFun P f)
  | .fsqrt f => .fsqrt <$> (stepFun P f)
  | .fexp2 f => .fexp2 <$> (stepFun P f)
  | .flog2 f => .flog2 <$> (stepFun P f)
  | .fsin f => .fsin <$> (stepFun P f)
  | .fcos f => .fcos <$> (stepFun P f)
  | .ftanh f => .ftanh <$> (stepFun P f)
  | .fsigm f => .fsigm <$> (stepFun P f)
  | .fdiv fmt rm d a b r => do
    let p ← stepTwo P d a r
    let b ← stepView P b (r.getLsbD 0)
    pure (.fdiv fmt rm p.1 p.2 b r)
  | .sdiv f => .sdiv <$> (stepDiv f)
  | .sdivu f => .sdivu <$> (stepDiv f)
  | .srem f => .srem <$> (stepDiv f)
  | .sremu f => .sremu <$> (stepDiv f)
  | .ldv v m => stepMView P 64 v m .ldv
  | .stv v m => stepMView P 64 v m .stv
  | .lds sx sz sb m => stepMReg (Size.bytes sz) sb m (.lds sx sz)
  | .sts sz sb m => stepMReg (Size.bytes sz) sb m (.sts sz)
  | .ldg v m => stepMView P 4 v m .ldg
  | .stg v m => stepMView P 4 v m .stg
  | .ldd g d m => do
    let d ← stepReg 64 d (m.rstep.getLsbD 1)
    let m ← stepM 64 m
    pure (.ldd g d m)
  | .std g d m => do
    let d ← stepReg 64 d (m.rstep.getLsbD 1)
    let m ← stepM 64 m
    pure (.std g d m)
  | .ldwb h sb sc m => stepMTwo 64 sb sc m (.ldwb h)
  | .aadd w sb sc m => stepAtom w sb sc m .aadd
  | .afadd w sb sc m => stepAtom w sb sc m .afadd
  | .amin w sb sc m => stepAtom w sb sc m .amin
  | .amax w sb sc m => stepAtom w sb sc m .amax
  | .aminu w sb sc m => stepAtom w sb sc m .aminu
  | .amaxu w sb sc m => stepAtom w sb sc m .amaxu
  | .aand w sb sc m => stepAtom w sb sc m .aand
  | .aor w sb sc m => stepAtom w sb sc m .aor
  | .axor w sb sc m => stepAtom w sb sc m .axor
  | .axch w sb sc m => stepAtom w sb sc m .axch
  | .acas w sb sc m => stepAtom w sb sc m .acas
  | .aaddRem w sb b m => stepAtomRem w sb b m .aaddRem
  | .afaddRem w sb b m => stepAtomRem w sb b m .afaddRem
  | .aminRem w sb b m => stepAtomRem w sb b m .aminRem
  | .amaxRem w sb b m => stepAtomRem w sb b m .amaxRem
  | .aminuRem w sb b m => stepAtomRem w sb b m .aminuRem
  | .amaxuRem w sb b m => stepAtomRem w sb b m .amaxuRem
  | .aandRem w sb b m => stepAtomRem w sb b m .aandRem
  | .aorRem w sb b m => stepAtomRem w sb b m .aorRem
  | .axorRem w sb b m => stepAtomRem w sb b m .axorRem
  | .axchRem w sb b m => stepAtomRem w sb b m .axchRem
  | .acasRem w sb b m => stepAtomRem w sb b m .acasRem
  | .ldr acq sb bar m => stepMBar 64 sb bar m (.ldr acq)
  | .str rel sb bar m => stepMBar 64 sb bar m (.str rel)
  | .shcpy sb m => stepMReg 64 sb m .shcpy
  | .publ bar sc m => do
    let bar ← stepBar bar (m.rstep.getLsbD 1)
    let m ← stepMDyn 1 m
    pure (.publ bar sc m)
  | .shcan sa r => (fun sa => .shcan sa r) <$> (stepScalar sa (r.getLsbD 2))
  | .shqry sa sb r => do
    let sa ← stepScalar sa (r.getLsbD 2)
    let sb ← stepScalar sb (r.getLsbD 1)
    pure (.shqry sa sb r)
  | .mma f => .mma <$> (stepMma P f)
  | .mmaz f => .mmaz <$> (stepMma P f)
  | .mseq f => .mseq <$> (stepSeq P f)
  | .mzero acc i32 r => (fun acc => .mzero acc i32 r) <$> (stepAcc acc (r.getLsbD 2))
  | .mrd f => .mrd <$> (stepMove P f)
  | .mwr f => .mwr <$> (stepMove P f)
  | .kset bank side v r => (fun v => .kset bank side v r) <$> (stepView P v r)
  | .act st bk row step => (fun row => .act st bk row step) <$> (stepNat row step.toInt 4096)
  | .rd f => .rd <$> (stepCol f)
  | .wr f => .wr <$> (stepCol f)
  | .rda f => .rda <$> (stepCol f)
  | .wra f => .wra <$> (stepCol f)
  | .pre st bk step => (fun bk => .pre st bk step) <$> (stepNat bk step.toInt 16)
  | .refb st bk step => (fun bk => .refb st bk step) <$> (stepNat bk step.toInt 16)
  | .sdrv g o => do
    let g' ← stepGrp g
    let o ← stepOpnd P g o
    pure (.sdrv g' o)
  | .stap g o st => do
    let g' ← stepGrp g
    let o ← stepOpnd P g o
    pure (.stap g' o (stepStamp dt st))
  | .sfwd g o st od ol => do
    let g' ← stepGrp g
    let o ← stepOpnd P g o
    pure (.sfwd g' o (stepStamp dt st) od ol)
  | .seos g => .seos <$> (stepGrp g)
  | .sred g o st od ol rf => do
    let g' ← stepGrp g
    let o ← stepOpnd P g o
    pure (.sred g' o (stepStamp dt st) od ol rf)
  -- no step field: the scalar class (13 R240), KONE, PREA and REF
  | i => pure i

/-- The encoding conditions of R74 on an operation as stepped: the lowest reason. -/
def recheck (P : Nat) (i : Instr) : Except Nat Instr :=
  match classOf i, encode i with
  | some cl, w1 :: r => decodeOp P cl w1 (r.headD 0)
  | _, _ => .ok i
/-- What a slot has to issue: the UNDEF reasons that its encoding or its step gives, and the operation. -/
abbrev SlotOp := List Nat × Option Instr
def SlotOp.ofDecode : Except Nat Instr → SlotOp
  | .ok i => ([], some i)
  | .error m => ([m], none)
/-- The descriptor that a SHCPY names has no place after a step: its address register or offset leaves its range. -/
def descLost : Instr → Bool
  | .shcpy sb m => (do let _ ← stepScalar sb (m.rstep.getLsbD 1)
                       stepNat m.off (m.astep.toInt * 64) (2 ^ 20) : Stepped _).run false |>.2
  | _ => false
/-- A re-issue of a kept or repeated operation. -/
def nextIssue (P dt : Nat) (i : Instr) : SlotOp :=
  let r := (stepOp P dt i).run false
  let c := SlotOp.ofDecode (recheck P r.1)
  (if r.2 then 6 :: c.1 else c.1, if descLost i then none else c.2)

/-! ### Issuing -/

/-- The issue of an operation; the rows that are whole steps of the machine are no operations. -/
def issueOp : Instr → Issue
  | .br off => issueBr off
  | .brp p neg off => issueBrp p neg off
  | .call off => issueCall off
  | .ret => issueRet
  | .jmps a l => issueJmps a l
  | .loop c f => issueLoop c f
  | .loopv a f => issueLoopv a f
  | .loops d l x a f => issueLoops d l x a f
  | .leave => issueLeave
  | .walkn p w sc => issueWalkn p w sc
  | .align t => issueAlign t
  | .hold i => issueHold i
  | .waita a b c w hm h off => issueWaita a b c w hm h off
  | .bari bar sc arr bw bh b => issueBari bar sc arr bw bh b
  | .bara bar => issueBara bar
  | .barw hm ph h bar => issueBarw hm ph h bar
  | .fence sc => issueFence sc
  | .trap c => issueTrap c
  | .sysc c => issueSysc c
  | .eret => issueEret
  | .lease p d c => issueLease p d c
  | .mark a t => issueMark a t
  | .savept i a => issueSavept i a
  | .ovl p f b => issueOvl p f b
  | .add d a b => issueAdd d a b
  | .sub d a b => issueSub d a b
  | .mul d a b => issueMul d a b
  | .mulh d a b => issueMulh d a b
  | .mulhu d a b => issueMulhu d a b
  | .and d a b => issueAnd d a b
  | .or d a b => issueOr d a b
  | .xor d a b => issueXor d a b
  | .andn d a b => issueAndn d a b
  | .shl d a b => issueShl d a b
  | .shr d a b => issueShr d a b
  | .sar d a b => issueSar d a b
  | .rol d a b => issueRol d a b
  | .min d a b => issueMin d a b
  | .max d a b => issueMax d a b
  | .minu d a b => issueMinu d a b
  | .maxu d a b => issueMaxu d a b
  | .clz d a => issueClz d a
  | .popc d a => issuePopc d a
  | .extb d a b w => issueExtb d a b w
  | .insb d a b w => issueInsb d a b w
  | .sel d a b p => issueSel d a b p
  | .addi d a i => issueAddi d a i
  | .andi d a i => issueAndi d a i
  | .ori d a i => issueOri d a i
  | .xori d a i => issueXori d a i
  | .shli d a h => issueShli d a h
  | .shri d a h => issueShri d a h
  | .sari d a h => issueSari d a h
  | .li d i => issueLi d i
  | .lih d i => issueLih d i
  | .cmpeq d a b => issueCmpeq d a b
  | .cmpne d a b => issueCmpne d a b
  | .cmplt d a b => issueCmplt d a b
  | .cmple d a b => issueCmple d a b
  | .cmpltu d a b => issueCmpltu d a b
  | .cmpleu d a b => issueCmpleu d a b
  | .cmpeqi d a i => issueCmpeqi d a i
  | .cmplti d a i => issueCmplti d a i
  | .pand d a b => issuePand d a b
  | .por d a b => issuePor d a b
  | .pxor d a b => issuePxor d a b
  | .pnot d a => issuePnot d a
  | .movs d id => issueMovs d id
  | .movt a id => issueMovt a id
  | .movp a b => issueMovp a b
  | .movps d => issueMovps d
  | .fadd d a b rm => issueFadd d a b rm
  | .fsub d a b rm => issueFsub d a b rm
  | .fmul d a b rm => issueFmul d a b rm
  | .ffma d a b x rm => issueFfma d a b x rm
  | .fcmplt d a b => issueFcmplt d a b
  | .fcmpeq d a b => issueFcmpeq d a b
  | .fcvti d a w u st rm => issueFcvti d a w u st rm
  | .fcvtf d a w u rm => issueFcvtf d a w u rm
  | .vadd f => issueVadd f
  | .vsub f => issueVsub f
  | .vmul f => issueVmul f
  | .vfma f => issueVfma f
  | .vmin f => issueVmin f
  | .vmax f => issueVmax f
  | .vabs f => issueVabs f
  | .vneg f => issueVneg f
  | .vand f => issueVand f
  | .vor f => issueVor f
  | .vxor f => issueVxor f
  | .vshl f => issueVshl f
  | .vshr f => issueVshr f
  | .vsar f => issueVsar f
  | .vsel f => issueVsel f
  | .vcmpeq f => issueVcmpeq f
  | .vcmplt f => issueVcmplt f
  | .vcmple f => issueVcmple f
  | .vmov fmt d a _ => issueVmov fmt d a
  | .vbcs fmt d a _ => issueVbcs fmt d a
  | .viota fmt d a b _ => issueViota fmt d a b
  | .vmadw fmt sat sel d a b _ => issueVmadw fmt sat sel d a b
  | .vmulh f => issueVmulh f
  | .vcvt f => issueVcvt f
  | .vcvtef f => issueVcvtef f
  | .vsacc fmt rm sat uni d a b _ => issueVsacc fmt rm sat uni d a b
  | .vrng fmt d _ => issueVrng fmt d
  | .vrotr f => issueVrotr f
  | .vrotc f => issueVrotc f
  | .vbcr f => issueVbcr f
  | .vbcc f => issueVbcc f
  | .vredr f => issueVredr f
  | .vredc f => issueVredc f
  | .vshfr f => issueVshfr f
  | .vshfc f => issueVshfc f
  | .vtrn fmt d a _ => issueVtrn fmt d a
  | .vpart fmt d a b _ => issueVpart fmt d a b
  | .vcnt fmt d a _ => issueVcnt fmt d a
  | .vargm fmt mn d a _ => issueVargm fmt mn d a
  | .dnorm fmt g d a _ => issueDnorm fmt g d a
  | .dcvt fmt g d a _ => issueDcvt fmt g d a
  | .ddot f => issueDdot f
  | .ddotn f => issueDdotn f
  | .dscl f => issueDscl f
  | .dneg f => issueDneg f
  | .dadd f => issueDadd f
  | .dsub f => issueDsub f
  | .dmix f => issueDmix f
  | .dproj f => issueDproj f
  | .dsim g d a b _ => issueDsim g d a b
  | .dzt g p a _ => issueDzt g p a
  | .dmov f => issueDmov f
  | .dgetn f => issueDgetn f
  | .dsetn f => issueDsetn f
  | .frcp f => issueFrcp f
  | .frsq f => issueFrsq f
  | .fsqrt f => issueFsqrt f
  | .fexp2 f => issueFexp2 f
  | .flog2 f => issueFlog2 f
  | .fsin f => issueFsin f
  | .fcos f => issueFcos f
  | .ftanh f => issueFtanh f
  | .fsigm f => issueFsigm f
  | .fdiv fmt rm d a b _ => issueFdiv fmt rm d a b
  | .sdiv f => issueSdiv f
  | .sdivu f => issueSdivu f
  | .srem f => issueSrem f
  | .sremu f => issueSremu f
  | .ldv v m => issueLdv v m
  | .stv v m => issueStv v m
  | .lds sx sz sb m => issueLds sx sz sb m
  | .sts sz sb m => issueSts sz sb m
  | .ldg v m => issueLdg v m
  | .stg v m => issueStg v m
  | .ldd g d m => issueLdd g d m
  | .std g d m => issueStd g d m
  | .ldwb h sb sc m => issueLdwb h sb sc m
  | .aadd w sb sc m => issueAadd w sb sc m
  | .afadd w sb sc m => issueAfadd w sb sc m
  | .amin w sb sc m => issueAmin w sb sc m
  | .amax w sb sc m => issueAmax w sb sc m
  | .aminu w sb sc m => issueAminu w sb sc m
  | .amaxu w sb sc m => issueAmaxu w sb sc m
  | .aand w sb sc m => issueAand w sb sc m
  | .aor w sb sc m => issueAor w sb sc m
  | .axor w sb sc m => issueAxor w sb sc m
  | .axch w sb sc m => issueAxch w sb sc m
  | .acas w sb sc m => issueAcas w sb sc m
  | .aaddRem w sb b m => issueAaddRem w sb b m
  | .afaddRem w sb b m => issueAfaddRem w sb b m
  | .aminRem w sb b m => issueAminRem w sb b m
  | .amaxRem w sb b m => issueAmaxRem w sb b m
  | .aminuRem w sb b m => issueAminuRem w sb b m
  | .amaxuRem w sb b m => issueAmaxuRem w sb b m
  | .aandRem w sb b m => issueAandRem w sb b m
  | .aorRem w sb b m => issueAorRem w sb b m
  | .axorRem w sb b m => issueAxorRem w sb b m
  | .axchRem w sb b m => issueAxchRem w sb b m
  | .acasRem w sb b m => issueAcasRem w sb b m
  | .ldr acq sb bar m => issueLdr acq sb bar m
  | .str rel sb bar m => issueStr rel sb bar m
  | .shcpy sb m => issueShcpy sb m
  | .publ bar sc m => issuePubl bar sc m
  | .shcan sa _ => issueShcan sa
  | .shqry sa sb _ => issueShqry sa sb
  | .mma f => issueMma f
  | .mmaz f => issueMmaz f
  | .mseq f => issueMseq f
  | .mzero a i _ => issueMzero a i
  | .mrd f => issueMrd f
  | .mwr f => issueMwr f
  | .kset bank side v _ => issueKset bank side v
  | .kone bank => issueKone bank
  | .act st bk row _ => issueAct st bk row
  | .rd f => issueRd f
  | .wr f => issueWr f
  | .rda f => issueRda f
  | .wra f => issueWra f
  | .pre st bk _ => issuePre st bk
  | .prea st => issuePrea st
  | .ref st => issueRef st
  | .refb st bk _ => issueRefb st bk
  | .sdrv g o => issueSdrv g o
  | .stap g o st => issueStap g o st
  | .sfwd g o st od ol => issueSfwd g o st od ol
  | .seos g => issueSeos g
  | .sred g o st od ol rf => issueSred g o st od ol rf
  | _ => fun s => .ok s

/-- The C operation of a member's copy of a bundle in espalier mode (23 R406). -/
def issueCopy (i : Instr) : Issue := fun s =>
  match i with
  | .br _ | .brp _ _ _ | .ret | .loop _ _ | .loopv _ _ | .loops _ _ _ _ _ | .leave | .align _ | .jmps _ false
  | .lease _ _ _ | .savept _ _ | .ovl _ _ _ | .waita _ _ _ _ false _ _ => .ok s
  | .call _ | .jmps _ true => writeLink s
  | i => issueOp i s

end Sys2Proof.Machine
end

