-- ==== Sys2Proof/Machine/ExecControl.lean ====
section
/-! DEFINITION. The meanings of the sequencer and the C slot (19_control_flow.md): one definition a row. -/
namespace Sys2Proof.Machine

/-- BR: Branches to the bundle at the given word offset from its own header (R346) -/
def execBr (off : BitVec 24) (s : State) : Host.Outcome State Fault Refusal := settleC (issueBr off) s
/-- BRP: Branches when the named predicate, optionally negated, is 1 (R346) -/
def execBrp (p : BitVec 4) (neg : Bool) (off : BitVec 19) (s : State) : Host.Outcome State Fault Refusal :=
  settleC (issueBrp p neg off) s
/-- CALL: Branches to the given offset and writes the return address into lk (R346) -/
def execCall (off : BitVec 24) (s : State) : Host.Outcome State Fault Refusal := settleC (issueCall off) s
/-- RET: Continues at the address held in lk (R346) -/
def execRet (s : State) : Host.Outcome State Fault Refusal := settleC issueRet s
/-- JMPS: Jumps to the address in a scalar register, and optionally writes lk (R346) -/
def execJmps (a : BitVec 6) (link : Bool) (s : State) : Host.Outcome State Fault Refusal :=
  settleC (issueJmps a link) s
/-- LOOP: Pushes a counted loop entry with an immediate count (R347) -/
def execLoop (cnt : BitVec 12) (fin : BitVec 12) (s : State) : Host.Outcome State Fault Refusal :=
  settleC (issueLoop cnt fin) s
/-- LOOPV: Pushes a counted loop entry whose count is read from a scalar register; a zero count skips the loop
(R347) -/
def execLoopv (a : BitVec 6) (fin : BitVec 12) (s : State) : Host.Outcome State Fault Refusal :=
  settleC (issueLoopv a fin) s
/-- LOOPS: Pushes a stream loop entry that taps a lane at each end bundle and ends on an end token (R348) -/
def execLoops (dir : Dir) (lane : BitVec 4) (ex : BitVec 4) (age : Age) (fin : BitVec 12) (s : State) :
    Host.Outcome State Fault Refusal :=
  settleC (issueLoops dir lane ex age fin) s
/-- LEAVE: Pops the innermost loop entry and continues after its end bundle (R347) -/
def execLeave (s : State) : Host.Outcome State Fault Refusal := settleC issueLeave s
/-- WALKN: Hands the tile its next iteration of a walker record, writing s56 to s59 and a predicate (R349) -/
def execWalkn (p : BitVec 4) (w : BitVec 4) (sc : BScope) (s : State) : Host.Outcome State Fault Refusal :=
  settleC (issueWalkn p w sc) s
/-- ALIGN: Waits with the counter running until the given sc after the plot's start, or raises SLIP 0xA4 if that sc
has passed (R350) -/
def execAlign (target : BitVec 48) (s : State) : Host.Outcome State Fault Refusal := settleC (issueAlign target) s
/-- HOLD: A plot-wide hold point that pauses SCYC until the hold-table condition holds; pending stops, stretch and
thermal tests are taken here (R356) -/
def execHold (i : BitVec 6) (s : State) : Host.Outcome State Fault Refusal := settleC (issueHold i) s
/-- WAITA: Repeats an acquire read of a word until its compare with a scalar value holds, optionally as a hold point
(R353) -/
def execWaita (a : BitVec 6) (b : BitVec 6) (cmp : Cmp) (w64 : Bool) (hm : Bool) (h : BitVec 6) (off : BitVec 20) (s : State) :
    Host.Outcome State Fault Refusal :=
  settleC (issueWaita a b cmp w64 hm h off) s
/-- BARI: Arms a barrier with arrival and byte expectations and a scope (R351) -/
def execBari (bar : BitVec 6) (sc : BScope) (arr : BitVec 16) (bedw : BitVec 3) (bedh : BitVec 3) (b : BitVec 6) (s : State) :
    Host.Outcome State Fault Refusal :=
  settleC (issueBari bar sc arr bedw bedh b) s
/-- BARA: Adds one arrival to a barrier instance, acting as a release at the barrier's scope (R351) -/
def execBara (bar : BitVec 6) (s : State) : Host.Outcome State Fault Refusal := settleC (issueBara bar) s
/-- BARW: Waits until the tile sees the barrier leave the given phase, optionally as a hold point (R352) -/
def execBarw (hm : Bool) (ph : Bool) (h : BitVec 6) (bar : BitVec 6) (s : State) : Host.Outcome State Fault Refusal :=
  settleC (issueBarw hm ph h bar) s
/-- FENCE: Orders the tile's later dynamic accesses after its earlier ones at the given scope, without delaying
issue (R357) -/
def execFence (sc : Scope) (s : State) : Host.Outcome State Fault Refusal := settleC (issueFence sc) s
/-- TRAP: Raises TRAPI with the given code (R358) -/
def execTrap (code : BitVec 16) (s : State) : Host.Outcome State Fault Refusal := settleC (issueTrap code) s
/-- SYSC: Raises SYSC with the given code (R358) -/
def execSysc (code : BitVec 16) (s : State) : Host.Outcome State Fault Refusal := settleC (issueSysc code) s
/-- ERET: Restores the shadows, returns to user mode and re-issues the trapped bundle or passes over it (R437) -/
def execEret (s : State) : Host.Outcome State Fault Refusal := settleC issueEret s
/-- LEASE: Requests a boost pattern for the plot for a duration within an energy cap (R463) -/
def execLease (pulses : BitVec 5) (dur : BitVec 19) (cap : BitVec 20) (s : State) :
    Host.Outcome State Fault Refusal :=
  settleC (issueLease pulses dur cap) s
/-- MARK: Emits one selvage record holding a tag and a scalar value (R359) -/
def execMark (a : BitVec 6) (tag : BitVec 16) (s : State) : Host.Outcome State Fault Refusal :=
  settleC (issueMark a tag) s
/-- SAVEPT: Records a scalar as the sequence of a must-save item and as SAVESEQ (R470) -/
def execSavept (item : BitVec 4) (a : BitVec 6) (s : State) : Host.Outcome State Fault Refusal :=
  settleC (issueSavept item a) s
/-- OVL: Loads an image page into an instruction-store frame and counts the load into a barrier (R360) -/
def execOvl (page : BitVec 12) (frame : BitVec 5) (bar : BitVec 6) (s : State) : Host.Outcome State Fault Refusal :=
  settleC (issueOvl page frame bar) s

end Sys2Proof.Machine
end

