-- ==== Sys2Proof/Machine/ExecDirection.lean ====
section
/-! DEFINITION. The meanings of the direction operations of the vector slots (15_direction_registers.md): one definition a row. -/
namespace Sys2Proof.Machine

/-- DNORM: Loads an ordinary vector into a direction group and its norm (R292) -/
def execDnorm (fmt : Fmt) (g : Grp) (d : BitVec 6) (a : View) (_rstep : BitVec 3) (s : State) :
    Host.Outcome State Fault Refusal :=
  settle (issueDnorm fmt g d a) s
/-- DCVT: Writes a direction group back as an ordinary vector (R293) -/
def execDcvt (fmt : Fmt) (g : Grp) (dst : View) (a : BitVec 6) (_rstep : BitVec 3) (s : State) :
    Host.Outcome State Fault Refusal :=
  settle (issueDcvt fmt g dst a) s
/-- DDOT: Writes the cosine of two direction groups as FP32 (R294) -/
def execDdot (f : DTri) (s : State) : Host.Outcome State Fault Refusal := settle (issueDdot f) s
/-- DDOTN: Writes the dot product of two groups including their norms as FP32 (R294) -/
def execDdotn (f : DTri) (s : State) : Host.Outcome State Fault Refusal := settle (issueDdotn f) s
/-- DSCL: Adds a Q16.16 value to a group's norm (R296) -/
def execDscl (f : DPair) (s : State) : Host.Outcome State Fault Refusal := settle (issueDscl f) s
/-- DNEG: Negates the components of a group (R297) -/
def execDneg (f : DPair) (s : State) : Host.Outcome State Fault Refusal := settle (issueDneg f) s
/-- DADD: Adds two direction groups and renormalises (R298) -/
def execDadd (f : DTri) (s : State) : Host.Outcome State Fault Refusal := settle (issueDadd f) s
/-- DSUB: Subtracts two direction groups and renormalises (R298) -/
def execDsub (f : DTri) (s : State) : Host.Outcome State Fault Refusal := settle (issueDsub f) s
/-- DMIX: Mixes two direction groups by a clamped weight (R298) -/
def execDmix (f : DTri) (s : State) : Host.Outcome State Fault Refusal := settle (issueDmix f) s
/-- DPROJ: Removes from one group its part along another and renormalises (R299) -/
def execDproj (f : DTri) (s : State) : Host.Outcome State Fault Refusal := settle (issueDproj f) s
/-- DSIM: Writes sixteen cosines of one group against sixteen groups into a row (R295) -/
def execDsim (g : Grp) (dst : View) (a : BitVec 6) (b : BitVec 6) (_rstep : BitVec 3) (s : State) :
    Host.Outcome State Fault Refusal :=
  settle (issueDsim g dst a b) s
/-- DZT: Sets a predicate when a norm holds the zero code (R296) -/
def execDzt (g : Grp) (p : BitVec 4) (a : BitVec 6) (_rstep : BitVec 3) (s : State) :
    Host.Outcome State Fault Refusal :=
  settle (issueDzt g p a) s
/-- DMOV: Copies a group's components and norm (R297) -/
def execDmov (f : DPair) (s : State) : Host.Outcome State Fault Refusal := settle (issueDmov f) s
/-- DGETN: Reads a norm into a scalar (R296) -/
def execDgetn (f : DPair) (s : State) : Host.Outcome State Fault Refusal := settle (issueDgetn f) s
/-- DSETN: Writes a scalar into a norm unchanged (R296) -/
def execDsetn (f : DPair) (s : State) : Host.Outcome State Fault Refusal := settle (issueDsetn f) s

end Sys2Proof.Machine
end

