-- ==== Sys2Proof/Machine/ExecFunc.lean ====
section
/-! DEFINITION. The meanings of the function slot (14_vector_instructions.md): one definition a row. -/
namespace Sys2Proof.Machine

/-- FRCP: Correctly rounded reciprocal (R279) -/
def execFrcp (f : FUn) (s : State) : Host.Outcome State Fault Refusal := settle (issueFrcp f) s
/-- FRSQ: Correctly rounded reciprocal square root (R279) -/
def execFrsq (f : FUn) (s : State) : Host.Outcome State Fault Refusal := settle (issueFrsq f) s
/-- FSQRT: Correctly rounded square root (R279) -/
def execFsqrt (f : FUn) (s : State) : Host.Outcome State Fault Refusal := settle (issueFsqrt f) s
/-- FEXP2: Correctly rounded base-2 exponential (R279) -/
def execFexp2 (f : FUn) (s : State) : Host.Outcome State Fault Refusal := settle (issueFexp2 f) s
/-- FLOG2: Correctly rounded base-2 logarithm (R279) -/
def execFlog2 (f : FUn) (s : State) : Host.Outcome State Fault Refusal := settle (issueFlog2 f) s
/-- FSIN: Correctly rounded sine (R279) -/
def execFsin (f : FUn) (s : State) : Host.Outcome State Fault Refusal := settle (issueFsin f) s
/-- FCOS: Correctly rounded cosine (R279) -/
def execFcos (f : FUn) (s : State) : Host.Outcome State Fault Refusal := settle (issueFcos f) s
/-- FTANH: Correctly rounded hyperbolic tangent (R279) -/
def execFtanh (f : FUn) (s : State) : Host.Outcome State Fault Refusal := settle (issueFtanh f) s
/-- FSIGM: Correctly rounded logistic sigmoid (R279) -/
def execFsigm (f : FUn) (s : State) : Host.Outcome State Fault Refusal := settle (issueFsigm f) s
/-- FDIV: Correctly rounded elementwise division (R279) -/
def execFdiv (fmt : Fmt) (rm : Rm) (dst : View) (a : View) (b : View) (_rstep : BitVec 3) (s : State) :
    Host.Outcome State Fault Refusal :=
  settle (issueFdiv fmt rm dst a b) s
/-- SDIV: Signed 64-bit division (R280) -/
def execSdiv (f : SDiv) (s : State) : Host.Outcome State Fault Refusal := settle (issueSdiv f) s
/-- SDIVU: Unsigned 64-bit division (R280) -/
def execSdivu (f : SDiv) (s : State) : Host.Outcome State Fault Refusal := settle (issueSdivu f) s
/-- SREM: Signed 64-bit remainder (R280) -/
def execSrem (f : SDiv) (s : State) : Host.Outcome State Fault Refusal := settle (issueSrem f) s
/-- SREMU: Unsigned 64-bit remainder (R280) -/
def execSremu (f : SDiv) (s : State) : Host.Outcome State Fault Refusal := settle (issueSremu f) s

end Sys2Proof.Machine
end

