-- ==== Sys2Proof/Machine/ExecMatrix.lean ====
section
/-! DEFINITION. The meanings of the matrix slots (17_matrix_instructions.md): one definition a row. -/
namespace Sys2Proof.Machine

/-- MMA: Accumulates one K-block product into an accumulator (R326) -/
def execMma (f : XMma) (s : State) : Host.Outcome State Fault Refusal := settle (issueMma f) s
/-- MMAZ: Writes one K-block product into an accumulator from zero and sets its mode (R326) -/
def execMmaz (f : XMma) (s : State) : Host.Outcome State Fault Refusal := settle (issueMmaz f) s
/-- MSEQ: Runs a back-to-back sequence of MMA steps from a parameter word (R329) -/
def execMseq (f : XSeq) (s : State) : Host.Outcome State Fault Refusal := settle (issueMseq f) s
/-- MZERO: Zeros an accumulator and sets its mode (R332) -/
def execMzero (acc : BitVec 3) (i32 : Bool) (_rstep : BitVec 3) (s : State) : Host.Outcome State Fault Refusal :=
  settle (issueMzero acc i32) s
/-- MRD: Copies an accumulator row into a vector row (R333) -/
def execMrd (f : XMove) (s : State) : Host.Outcome State Fault Refusal := settle (issueMrd f) s
/-- MWR: Copies a vector row into an accumulator row (R333) -/
def execMwr (f : XMove) (s : State) : Host.Outcome State Fault Refusal := settle (issueMwr f) s
/-- KSET: Writes row or column scales of a latch bank from a vector row (R334) -/
def execKset (bank : Bool) (side : Bool) (v : View) (_rstep : Bool) (s : State) : Host.Outcome State Fault Refusal :=
  settle (issueKset bank side v) s
/-- KONE: Writes unity into every scale of a latch bank (R334) -/
def execKone (bank : Bool) (s : State) : Host.Outcome State Fault Refusal := settle (issueKone bank) s

end Sys2Proof.Machine
end

