-- ==== Sys2Proof/Machine/ExecMemory.lean ====
section
/-! DEFINITION. The meanings of the memory slots (10_memory_instructions.md, 08_shuttle_commands.md): one definition a row. -/
namespace Sys2Proof.Machine

/-- LDV: Loads a view from the scratchpad into the vector file (R181) -/
def execLdv (v : View) (m : MAddr) (s : State) : Host.Outcome State Fault Refusal := settle (issueLdv v m) s
/-- STV: Stores a view into the scratchpad (R181) -/
def execStv (v : View) (m : MAddr) (s : State) : Host.Outcome State Fault Refusal := settle (issueStv v m) s
/-- LDS: Loads 1 to 8 bytes into a scalar (R182) -/
def execLds (sx : Bool) (size : Size) (sb : BitVec 6) (m : MAddr) (s : State) : Host.Outcome State Fault Refusal :=
  settle (issueLds sx size sb m) s
/-- STS: Stores the low bytes of a scalar (R182) -/
def execSts (size : Size) (sb : BitVec 6) (m : MAddr) (s : State) : Host.Outcome State Fault Refusal :=
  settle (issueSts size sb m) s
/-- LDG: Gathers 64 words by an index row (R183) -/
def execLdg (v : View) (m : MAddr) (s : State) : Host.Outcome State Fault Refusal := settle (issueLdg v m) s
/-- STG: Scatters 64 words by an index row (R183) -/
def execStg (v : View) (m : MAddr) (s : State) : Host.Outcome State Fault Refusal := settle (issueStg v m) s
/-- LDD: Loads and renormalises a direction group from the scratchpad (R184) -/
def execLdd (g : Grp) (d : BitVec 6) (m : MAddr) (s : State) : Host.Outcome State Fault Refusal :=
  settle (issueLdd g d m) s
/-- STD: Stores the components of a direction group (R184) -/
def execStd (g : Grp) (d : BitVec 6) (m : MAddr) (s : State) : Host.Outcome State Fault Refusal :=
  settle (issueStd g d m) s
/-- LDWB: Copies granules from the scratchpad into a weight-buffer half (R185) -/
def execLdwb (h : Bool) (sb : BitVec 6) (sc : BitVec 6) (m : MAddr) (s : State) : Host.Outcome State Fault Refusal :=
  settle (issueLdwb h sb sc m) s
/-- AADD: Local atomic add on the tile's own scratchpad (R186) -/
def execAadd (w64 : Bool) (sb : BitVec 6) (sc : BitVec 6) (m : MAddr) (s : State) :
    Host.Outcome State Fault Refusal :=
  settle (issueAadd w64 sb sc m) s
/-- AFADD: Local atomic FP32 add (R186) -/
def execAfadd (w64 : Bool) (sb : BitVec 6) (sc : BitVec 6) (m : MAddr) (s : State) :
    Host.Outcome State Fault Refusal :=
  settle (issueAfadd w64 sb sc m) s
/-- AMIN: Local atomic signed minimum (R186) -/
def execAmin (w64 : Bool) (sb : BitVec 6) (sc : BitVec 6) (m : MAddr) (s : State) :
    Host.Outcome State Fault Refusal :=
  settle (issueAmin w64 sb sc m) s
/-- AMAX: Local atomic signed maximum (R186) -/
def execAmax (w64 : Bool) (sb : BitVec 6) (sc : BitVec 6) (m : MAddr) (s : State) :
    Host.Outcome State Fault Refusal :=
  settle (issueAmax w64 sb sc m) s
/-- AMINU: Local atomic unsigned minimum (R186) -/
def execAminu (w64 : Bool) (sb : BitVec 6) (sc : BitVec 6) (m : MAddr) (s : State) :
    Host.Outcome State Fault Refusal :=
  settle (issueAminu w64 sb sc m) s
/-- AMAXU: Local atomic unsigned maximum (R186) -/
def execAmaxu (w64 : Bool) (sb : BitVec 6) (sc : BitVec 6) (m : MAddr) (s : State) :
    Host.Outcome State Fault Refusal :=
  settle (issueAmaxu w64 sb sc m) s
/-- AAND: Local atomic AND (R186) -/
def execAand (w64 : Bool) (sb : BitVec 6) (sc : BitVec 6) (m : MAddr) (s : State) :
    Host.Outcome State Fault Refusal :=
  settle (issueAand w64 sb sc m) s
/-- AOR: Local atomic OR (R186) -/
def execAor (w64 : Bool) (sb : BitVec 6) (sc : BitVec 6) (m : MAddr) (s : State) : Host.Outcome State Fault Refusal :=
  settle (issueAor w64 sb sc m) s
/-- AXOR: Local atomic XOR (R186) -/
def execAxor (w64 : Bool) (sb : BitVec 6) (sc : BitVec 6) (m : MAddr) (s : State) :
    Host.Outcome State Fault Refusal :=
  settle (issueAxor w64 sb sc m) s
/-- AXCH: Local atomic exchange (R186) -/
def execAxch (w64 : Bool) (sb : BitVec 6) (sc : BitVec 6) (m : MAddr) (s : State) :
    Host.Outcome State Fault Refusal :=
  settle (issueAxch w64 sb sc m) s
/-- ACAS: Local atomic compare and swap (R186) -/
def execAcas (w64 : Bool) (sb : BitVec 6) (sc : BitVec 6) (m : MAddr) (s : State) :
    Host.Outcome State Fault Refusal :=
  settle (issueAcas w64 sb sc m) s
/-- AADD_REM: Remote atomic add at a virtual address (R187) -/
def execAaddRem (w64 : Bool) (sb : BitVec 6) (bar : BitVec 6) (m : MAddr) (s : State) :
    Host.Outcome State Fault Refusal :=
  settle (issueAaddRem w64 sb bar m) s
/-- AFADD_REM: Remote atomic FP32 add (R187) -/
def execAfaddRem (w64 : Bool) (sb : BitVec 6) (bar : BitVec 6) (m : MAddr) (s : State) :
    Host.Outcome State Fault Refusal :=
  settle (issueAfaddRem w64 sb bar m) s
/-- AMIN_REM: Remote atomic signed minimum (R187) -/
def execAminRem (w64 : Bool) (sb : BitVec 6) (bar : BitVec 6) (m : MAddr) (s : State) :
    Host.Outcome State Fault Refusal :=
  settle (issueAminRem w64 sb bar m) s
/-- AMAX_REM: Remote atomic signed maximum (R187) -/
def execAmaxRem (w64 : Bool) (sb : BitVec 6) (bar : BitVec 6) (m : MAddr) (s : State) :
    Host.Outcome State Fault Refusal :=
  settle (issueAmaxRem w64 sb bar m) s
/-- AMINU_REM: Remote atomic unsigned minimum (R187) -/
def execAminuRem (w64 : Bool) (sb : BitVec 6) (bar : BitVec 6) (m : MAddr) (s : State) :
    Host.Outcome State Fault Refusal :=
  settle (issueAminuRem w64 sb bar m) s
/-- AMAXU_REM: Remote atomic unsigned maximum (R187) -/
def execAmaxuRem (w64 : Bool) (sb : BitVec 6) (bar : BitVec 6) (m : MAddr) (s : State) :
    Host.Outcome State Fault Refusal :=
  settle (issueAmaxuRem w64 sb bar m) s
/-- AAND_REM: Remote atomic AND (R187) -/
def execAandRem (w64 : Bool) (sb : BitVec 6) (bar : BitVec 6) (m : MAddr) (s : State) :
    Host.Outcome State Fault Refusal :=
  settle (issueAandRem w64 sb bar m) s
/-- AOR_REM: Remote atomic OR (R187) -/
def execAorRem (w64 : Bool) (sb : BitVec 6) (bar : BitVec 6) (m : MAddr) (s : State) :
    Host.Outcome State Fault Refusal :=
  settle (issueAorRem w64 sb bar m) s
/-- AXOR_REM: Remote atomic XOR (R187) -/
def execAxorRem (w64 : Bool) (sb : BitVec 6) (bar : BitVec 6) (m : MAddr) (s : State) :
    Host.Outcome State Fault Refusal :=
  settle (issueAxorRem w64 sb bar m) s
/-- AXCH_REM: Remote atomic exchange (R187) -/
def execAxchRem (w64 : Bool) (sb : BitVec 6) (bar : BitVec 6) (m : MAddr) (s : State) :
    Host.Outcome State Fault Refusal :=
  settle (issueAxchRem w64 sb bar m) s
/-- ACAS_REM: Remote atomic compare and swap (R187) -/
def execAcasRem (w64 : Bool) (sb : BitVec 6) (bar : BitVec 6) (m : MAddr) (s : State) :
    Host.Outcome State Fault Refusal :=
  settle (issueAcasRem w64 sb bar m) s
/-- LDR: Reads 64 bytes at a virtual address into a local granule, completing on a barrier (R189) -/
def execLdr (acq : Option Scope) (sb : BitVec 6) (bar : BitVec 6) (m : MAddr) (s : State) :
    Host.Outcome State Fault Refusal :=
  settle (issueLdr acq sb bar m) s
/-- STR: Writes a local granule to a virtual address, completing on a barrier (R190) -/
def execStr (rel : Option Scope) (sb : BitVec 6) (bar : BitVec 6) (m : MAddr) (s : State) :
    Host.Outcome State Fault Refusal :=
  settle (issueStr rel sb bar m) s
/-- SHCPY: Latches a copy descriptor, returns a copy id and queues the copy in the Shuttle (R137) -/
def execShcpy (sb : BitVec 6) (m : MAddr) (s : State) : Host.Outcome State Fault Refusal := settle (issueShcpy sb m) s
/-- PUBL: Publishes a twin range, swapping face and shadow at a swap point (R143) -/
def execPubl (bar : BitVec 6) (sc : Scope) (m : MAddr) (s : State) : Host.Outcome State Fault Refusal :=
  settle (issuePubl bar sc m) s
/-- SHCAN: Cancels a copy of the context (R146) -/
def execShcan (sa : BitVec 6) (_rstep : BitVec 3) (s : State) : Host.Outcome State Fault Refusal :=
  settle (issueShcan sa) s
/-- SHQRY: Returns the state of a copy (R147) -/
def execShqry (sa : BitVec 6) (sb : BitVec 6) (_rstep : BitVec 3) (s : State) : Host.Outcome State Fault Refusal :=
  settle (issueShqry sa sb) s

end Sys2Proof.Machine
end

