-- ==== Sys2Proof/Machine/ExecScalar.lean ====
section
/-! DEFINITION. The meanings of the scalar slots (13_scalar_instructions.md): one definition a row. -/
namespace Sys2Proof.Machine

/-- ADD: 64-bit addition (R243) -/
def execAdd (d : BitVec 6) (a : BitVec 6) (b : BitVec 6) (s : State) : Host.Outcome State Fault Refusal :=
  settle (issueAdd d a b) s
/-- SUB: 64-bit subtraction (R243) -/
def execSub (d : BitVec 6) (a : BitVec 6) (b : BitVec 6) (s : State) : Host.Outcome State Fault Refusal :=
  settle (issueSub d a b) s
/-- MUL: Low 64 bits of the product (R243) -/
def execMul (d : BitVec 6) (a : BitVec 6) (b : BitVec 6) (s : State) : Host.Outcome State Fault Refusal :=
  settle (issueMul d a b) s
/-- MULH: High 64 bits of the signed product (R243) -/
def execMulh (d : BitVec 6) (a : BitVec 6) (b : BitVec 6) (s : State) : Host.Outcome State Fault Refusal :=
  settle (issueMulh d a b) s
/-- MULHU: High 64 bits of the unsigned product (R243) -/
def execMulhu (d : BitVec 6) (a : BitVec 6) (b : BitVec 6) (s : State) : Host.Outcome State Fault Refusal :=
  settle (issueMulhu d a b) s
/-- AND: Bitwise AND (R243) -/
def execAnd (d : BitVec 6) (a : BitVec 6) (b : BitVec 6) (s : State) : Host.Outcome State Fault Refusal :=
  settle (issueAnd d a b) s
/-- OR: Bitwise OR (R243) -/
def execOr (d : BitVec 6) (a : BitVec 6) (b : BitVec 6) (s : State) : Host.Outcome State Fault Refusal :=
  settle (issueOr d a b) s
/-- XOR: Bitwise XOR (R243) -/
def execXor (d : BitVec 6) (a : BitVec 6) (b : BitVec 6) (s : State) : Host.Outcome State Fault Refusal :=
  settle (issueXor d a b) s
/-- ANDN: AND with the complement of the second operand (R243) -/
def execAndn (d : BitVec 6) (a : BitVec 6) (b : BitVec 6) (s : State) : Host.Outcome State Fault Refusal :=
  settle (issueAndn d a b) s
/-- SHL: Shift left by a register count (R243) -/
def execShl (d : BitVec 6) (a : BitVec 6) (b : BitVec 6) (s : State) : Host.Outcome State Fault Refusal :=
  settle (issueShl d a b) s
/-- SHR: Logical shift right by a register count (R243) -/
def execShr (d : BitVec 6) (a : BitVec 6) (b : BitVec 6) (s : State) : Host.Outcome State Fault Refusal :=
  settle (issueShr d a b) s
/-- SAR: Arithmetic shift right by a register count (R243) -/
def execSar (d : BitVec 6) (a : BitVec 6) (b : BitVec 6) (s : State) : Host.Outcome State Fault Refusal :=
  settle (issueSar d a b) s
/-- ROL: Rotate left by a register count (R243) -/
def execRol (d : BitVec 6) (a : BitVec 6) (b : BitVec 6) (s : State) : Host.Outcome State Fault Refusal :=
  settle (issueRol d a b) s
/-- MIN: Signed minimum (R243) -/
def execMin (d : BitVec 6) (a : BitVec 6) (b : BitVec 6) (s : State) : Host.Outcome State Fault Refusal :=
  settle (issueMin d a b) s
/-- MAX: Signed maximum (R243) -/
def execMax (d : BitVec 6) (a : BitVec 6) (b : BitVec 6) (s : State) : Host.Outcome State Fault Refusal :=
  settle (issueMax d a b) s
/-- MINU: Unsigned minimum (R243) -/
def execMinu (d : BitVec 6) (a : BitVec 6) (b : BitVec 6) (s : State) : Host.Outcome State Fault Refusal :=
  settle (issueMinu d a b) s
/-- MAXU: Unsigned maximum (R243) -/
def execMaxu (d : BitVec 6) (a : BitVec 6) (b : BitVec 6) (s : State) : Host.Outcome State Fault Refusal :=
  settle (issueMaxu d a b) s
/-- CLZ: Counts leading zero bits (R243) -/
def execClz (d : BitVec 6) (a : BitVec 6) (s : State) : Host.Outcome State Fault Refusal := settle (issueClz d a) s
/-- POPC: Counts one bits (R243) -/
def execPopc (d : BitVec 6) (a : BitVec 6) (s : State) : Host.Outcome State Fault Refusal := settle (issuePopc d a) s
/-- EXTB: Extracts a bit field, zero-extended (R244) -/
def execExtb (d : BitVec 6) (a : BitVec 6) (b : BitVec 6) (w : BitVec 6) (s : State) :
    Host.Outcome State Fault Refusal :=
  settle (issueExtb d a b w) s
/-- INSB: Inserts a bit field into the destination register (R244) -/
def execInsb (d : BitVec 6) (a : BitVec 6) (b : BitVec 6) (w : BitVec 6) (s : State) :
    Host.Outcome State Fault Refusal :=
  settle (issueInsb d a b w) s
/-- SEL: Selects one of two scalars by a predicate (R244) -/
def execSel (d : BitVec 6) (a : BitVec 6) (b : BitVec 6) (p : BitVec 4) (s : State) :
    Host.Outcome State Fault Refusal :=
  settle (issueSel d a b p) s
/-- ADDI: Adds a sign-extended 12-bit immediate (R245) -/
def execAddi (d : BitVec 6) (a : BitVec 6) (i : BitVec 12) (s : State) : Host.Outcome State Fault Refusal :=
  settle (issueAddi d a i) s
/-- ANDI: ANDs with a sign-extended immediate (R245) -/
def execAndi (d : BitVec 6) (a : BitVec 6) (i : BitVec 12) (s : State) : Host.Outcome State Fault Refusal :=
  settle (issueAndi d a i) s
/-- ORI: ORs with a sign-extended immediate (R245) -/
def execOri (d : BitVec 6) (a : BitVec 6) (i : BitVec 12) (s : State) : Host.Outcome State Fault Refusal :=
  settle (issueOri d a i) s
/-- XORI: XORs with a sign-extended immediate (R245) -/
def execXori (d : BitVec 6) (a : BitVec 6) (i : BitVec 12) (s : State) : Host.Outcome State Fault Refusal :=
  settle (issueXori d a i) s
/-- SHLI: Shift left by an immediate count (R245) -/
def execShli (d : BitVec 6) (a : BitVec 6) (h : BitVec 6) (s : State) : Host.Outcome State Fault Refusal :=
  settle (issueShli d a h) s
/-- SHRI: Logical shift right by an immediate count (R245) -/
def execShri (d : BitVec 6) (a : BitVec 6) (h : BitVec 6) (s : State) : Host.Outcome State Fault Refusal :=
  settle (issueShri d a h) s
/-- SARI: Arithmetic shift right by an immediate count (R245) -/
def execSari (d : BitVec 6) (a : BitVec 6) (h : BitVec 6) (s : State) : Host.Outcome State Fault Refusal :=
  settle (issueSari d a h) s
/-- LI: Loads a sign-extended 32-bit immediate (R245) -/
def execLi (d : BitVec 6) (i : BitVec 32) (s : State) : Host.Outcome State Fault Refusal := settle (issueLi d i) s
/-- LIH: Writes a 32-bit immediate into the high half, keeping the low half (R245) -/
def execLih (d : BitVec 6) (i : BitVec 32) (s : State) : Host.Outcome State Fault Refusal := settle (issueLih d i) s
/-- CMPEQ: Sets a predicate when a equals b (R246) -/
def execCmpeq (d : BitVec 4) (a : BitVec 6) (b : BitVec 6) (s : State) : Host.Outcome State Fault Refusal :=
  settle (issueCmpeq d a b) s
/-- CMPNE: Sets a predicate when a differs from b (R246) -/
def execCmpne (d : BitVec 4) (a : BitVec 6) (b : BitVec 6) (s : State) : Host.Outcome State Fault Refusal :=
  settle (issueCmpne d a b) s
/-- CMPLT: Signed less-than compare into a predicate (R246) -/
def execCmplt (d : BitVec 4) (a : BitVec 6) (b : BitVec 6) (s : State) : Host.Outcome State Fault Refusal :=
  settle (issueCmplt d a b) s
/-- CMPLE: Signed less-or-equal compare into a predicate (R246) -/
def execCmple (d : BitVec 4) (a : BitVec 6) (b : BitVec 6) (s : State) : Host.Outcome State Fault Refusal :=
  settle (issueCmple d a b) s
/-- CMPLTU: Unsigned less-than compare into a predicate (R246) -/
def execCmpltu (d : BitVec 4) (a : BitVec 6) (b : BitVec 6) (s : State) : Host.Outcome State Fault Refusal :=
  settle (issueCmpltu d a b) s
/-- CMPLEU: Unsigned less-or-equal compare into a predicate (R246) -/
def execCmpleu (d : BitVec 4) (a : BitVec 6) (b : BitVec 6) (s : State) : Host.Outcome State Fault Refusal :=
  settle (issueCmpleu d a b) s
/-- CMPEQI: Compares a scalar with an immediate for equality (R246) -/
def execCmpeqi (d : BitVec 4) (a : BitVec 6) (i : BitVec 12) (s : State) : Host.Outcome State Fault Refusal :=
  settle (issueCmpeqi d a i) s
/-- CMPLTI: Signed less-than compare of a scalar with an immediate (R246) -/
def execCmplti (d : BitVec 4) (a : BitVec 6) (i : BitVec 12) (s : State) : Host.Outcome State Fault Refusal :=
  settle (issueCmplti d a i) s
/-- PAND: ANDs two predicates (R246) -/
def execPand (d : BitVec 4) (a : BitVec 4) (b : BitVec 4) (s : State) : Host.Outcome State Fault Refusal :=
  settle (issuePand d a b) s
/-- POR: ORs two predicates (R246) -/
def execPor (d : BitVec 4) (a : BitVec 4) (b : BitVec 4) (s : State) : Host.Outcome State Fault Refusal :=
  settle (issuePor d a b) s
/-- PXOR: XORs two predicates (R246) -/
def execPxor (d : BitVec 4) (a : BitVec 4) (b : BitVec 4) (s : State) : Host.Outcome State Fault Refusal :=
  settle (issuePxor d a b) s
/-- PNOT: Writes the complement of a predicate (R246) -/
def execPnot (d : BitVec 4) (a : BitVec 4) (s : State) : Host.Outcome State Fault Refusal := settle (issuePnot d a) s
/-- MOVS: Reads a special register into a scalar (R247) -/
def execMovs (d : BitVec 6) (id : BitVec 12) (s : State) : Host.Outcome State Fault Refusal :=
  settle (issueMovs d id) s
/-- MOVT: Writes a scalar into a special register, effective from the next sc (R247) -/
def execMovt (a : BitVec 6) (id : BitVec 12) (s : State) : Host.Outcome State Fault Refusal :=
  settle (issueMovt a id) s
/-- MOVP: Writes selected predicates from the bits of a scalar under a mask (R248) -/
def execMovp (a : BitVec 6) (b : BitVec 6) (s : State) : Host.Outcome State Fault Refusal := settle (issueMovp a b) s
/-- MOVPS: Copies the predicate file into a scalar (R248) -/
def execMovps (d : BitVec 6) (s : State) : Host.Outcome State Fault Refusal := settle (issueMovps d) s
/-- FADD: FP32 addition, rounded once (R249) -/
def execFadd (d : BitVec 6) (a : BitVec 6) (b : BitVec 6) (rm : Rm) (s : State) : Host.Outcome State Fault Refusal :=
  settle (issueFadd d a b rm) s
/-- FSUB: FP32 subtraction, rounded once (R249) -/
def execFsub (d : BitVec 6) (a : BitVec 6) (b : BitVec 6) (rm : Rm) (s : State) : Host.Outcome State Fault Refusal :=
  settle (issueFsub d a b rm) s
/-- FMUL: FP32 multiplication, rounded once (R249) -/
def execFmul (d : BitVec 6) (a : BitVec 6) (b : BitVec 6) (rm : Rm) (s : State) : Host.Outcome State Fault Refusal :=
  settle (issueFmul d a b rm) s
/-- FFMA: FP32 fused multiply-add with one rounding (R249) -/
def execFfma (d : BitVec 6) (a : BitVec 6) (b : BitVec 6) (x : BitVec 6) (rm : Rm) (s : State) :
    Host.Outcome State Fault Refusal :=
  settle (issueFfma d a b x rm) s
/-- FCMPLT: FP32 less-than compare into a predicate (R250) -/
def execFcmplt (d : BitVec 4) (a : BitVec 6) (b : BitVec 6) (s : State) : Host.Outcome State Fault Refusal :=
  settle (issueFcmplt d a b) s
/-- FCMPEQ: FP32 equality compare into a predicate (R250) -/
def execFcmpeq (d : BitVec 4) (a : BitVec 6) (b : BitVec 6) (s : State) : Host.Outcome State Fault Refusal :=
  settle (issueFcmpeq d a b) s
/-- FCVTI: Converts FP32 to a 32- or 64-bit integer (R251) -/
def execFcvti (d : BitVec 6) (a : BitVec 6) (w64 : Bool) (uns : Bool) (sat : Bool) (rm : Rm) (s : State) :
    Host.Outcome State Fault Refusal :=
  settle (issueFcvti d a w64 uns sat rm) s
/-- FCVTF: Converts a 32- or 64-bit integer to FP32 (R251) -/
def execFcvtf (d : BitVec 6) (a : BitVec 6) (w64 : Bool) (uns : Bool) (rm : Rm) (s : State) :
    Host.Outcome State Fault Refusal :=
  settle (issueFcvtf d a w64 uns rm) s

end Sys2Proof.Machine
end

