-- ==== Sys2Proof/Machine/Bundle.lean ====
section
/-! DEFINITION. A tile's turn in an sc: the conditions of its boundary (04 R95), the bundle due (02 R34-R44), the next
bundle (19 R337-R340), espalier copies (23 R406) and hold points (19 R354-R355). -/
namespace Sys2Proof.Machine

/-! ### Leaving a barrier phase (19 R352) -/

/-- The fault that a BARW finds in the phase it leaves: of the barrier itself (09 R174), or from the fault record
(07 R132). -/
def State.leaveTrap (s : State) (n b addr : Nat) : Option Trap :=
  let r := (s.tile n).bar b
  if r.lerr = 0 then none
  else if r.lesub != 0 then some (trapAt r.lerr addr r.lesub.toNat (if b = 48 then 47 else b))
  else
    let w := leNat (Memory.read s.mem (s.headerPa (s.ctxOf n)) 64)
    some ⟨BitVec.ofNat 8 (w / 2 ^ 48), BitVec.ofNat 64 (w / 2 ^ 56 % 128 * 2 ^ 57 + w / 2 ^ 64 % 2 ^ 57), false⟩
/-- FLAGS with the phase's flags and PFLAGS, which is emptied (27 R448). -/
def Tile.mergeFlags (t : Tile) (b : Nat) : Tile :=
  t.mapRegs (fun r => { r with flags := r.flags ||| (t.bar b).lflags ||| r.pflags, pflags := 0 })
/-- A tile leaves a phase of barrier b that a bundle has waited for: its flags merge, and the fault of the phase is taken at
the next boundary (19 R352). -/
def State.leavePhase (s : State) (n b addr : Nat) : State :=
  s.mapTile n (fun t =>
    let q := t.mergeFlags b
    match s.leaveTrap n b addr with
    | some tr => q.addBoundary 5 tr (some addr)
    | none => q)
/-- BARW_RESUME: a waiting tile sees its barrier leave the phase. -/
def State.barwLeaves (s : State) (n : Nat) : Bool :=
  let t := s.tile n
  match t.seq.wait with
  | .barw b ph _ => !t.turn && (t.bar b).seen != ph
  | _ => false
/-- A MOVT that lands in this sc has landed: the ORs into FLAGS come after it (13 R247). -/
def State.movtLanded (s : State) (n : Nat) : Bool :=
  (s.tile n).pend.all (fun p => s.now n < p.due || p.act.rank != 1)
def State.barwResume (s : State) (n : Nat) : State :=
  match (s.tile n).seq.wait with
  | .barw b _ addr =>
    if s.barwLeaves n then
      (s.leavePhase n b addr).mapTile n (fun t => t.mapSeq (fun q => { q with wait := .none }))
    else s
  | _ => s
/-- A member's copy of a tile-local BARW in espalier mode (23 R406) (DEDUCED, log entry 28). -/
def copyBarw (ph : Bool) (bar : BitVec 6) : Issue := fun s =>
  let e := s.env
  let b := (s.tile e.n).barOf bar
  if ((s.tile e.n).bar b).seen = ph then .error (trapAt 0x0B e.addr 0xA7 (ph.toNat * 64 + bar.toNat))
  else .ok (s.leavePhase e.n b e.addr)

/-! ### The boundary -/

/-- The boundary conditions of a tile in this sc, with their places in the order of 04 R95; PSTOP is the last. -/
def State.boundary (s : State) (n : Nat) : List (Nat × Trap × Option Nat) :=
  let t := s.tile n
  t.trap.pending ++ (s.lateTraps n (s.now n)).map (fun p => (p.1, p.2, none)) ++
  (match t.trap.stopAt with
    | some (u, v) => if u ≤ s.now n then [(7, ⟨0x16, v, false⟩, none)] else []
    | none => [])
/-- The first of a list by place. -/
def firstOf : List (Nat × Trap × Option Nat) → Option (Nat × Trap × Option Nat)
  | [] => none
  | p :: r => match firstOf r with
    | none => some p
    | some q => if q.1 < p.1 then some q else some p
/-- The point a tile stands at: the address of the bundle due, its issue, and SKIP where the bundle at that address is to
be passed over and the one after it cannot be located (19 R347). -/
def State.duePoint (s : State) (n : Nat) : Nat × Nat × Bool :=
  let q := (s.tile n).seq
  if q.skip then
    match s.follow n q.pc with
    | .ok a => (a, 0, false)
    | .error _ => (q.pc, 0, true)
  else (q.pc, q.rep, false)
/-- A trap taken before the bundle due (27 R430). -/
def State.takeDue (s : State) (n : Nat) (tr : Trap) : State :=
  let d := s.duePoint n
  s.takeTrap n { tr with skip := d.2.2 } d.1 d.2.1
/-- A boundary trap taken: TPC is the bundle due, or the wait's own bundle (27 R430) (DEDUCED, log entry 45). -/
def State.takeBoundary (s : State) (n : Nat) (p : Nat × Trap × Option Nat) : State :=
  match p.2.2 with
  | some a => s.takeTrap n p.2.1 a 0
  | none => s.takeDue n p.2.1

/-! ### The operations of an issue -/

/-- What slot k's re-issue register issues next (02 R36, R37). -/
def keptOp (t : Tile) (now : Nat) (f : Fetched) (idx k : Nat) : SlotOp :=
  match (if f.drain && idx = 0 then [] else t.seq.reissue).find? (fun e => e.slot == k) with
  | some e => nextIssue t.panels (now - e.sc) e.op
  | none => ([5], none)
/-- The operation that slot k issues, with the UNDEF reasons of its mask, its encoding and its step (02 R35-R39); of a slot
that is both present and kept, with those of the kept operation (03 R75). -/
def slotOp (t : Tile) (now : Nat) (f : Fetched) (idx k : Nat) : SlotOp :=
  let r : SlotOp :=
    if f.has k && idx = 0 then
      let own : SlotOp := match f.ops.find? (fun o => o.1 == k) with
        | some o => .ofDecode (decodeOp t.panels (slotClass k) o.2.1 o.2.2)
        | none => ([], none)
      if f.keeps k then ((keptOp t now f idx k).1 ++ own.1, own.2) else own
    else if f.has k || f.keeps k then keptOp t now f idx k
    else ([], none)
  (if f.maskBad k then 5 :: r.1 else r.1, r.2)
/-- Operations of slot k that do not issue, and whose data may give further UNDEF reasons of the slot (03 R75): an MSEQ of
a refused encoding, by its parameter word (17 R328), and the kept operation of a slot that is also present. -/
def sideOps (t : Tile) (now : Nat) (f : Fetched) (idx k : Nat) : List (Nat × Instr) :=
  if f.has k && idx = 0 then
    (f.ops.filter (fun o => o.1 == k && k == 9 && fld o.2.1 24 7 == 3 && (slotOp t now f idx k).2.isNone)).map
      (fun o => (k, .mseq (xseqOf o.2.1 o.2.2))) ++
    (if f.keeps k then ((keptOp t now f idx k).2.map (fun i => (k, i))).toList else [])
  else []

/-- UNDEF, RESCOMBO, PRIV and DRAIN come before the other issue-time traps (R44). -/
def codeRank (c : BitVec 8) : Option Nat :=
  match c.toNat with
  | 1 => some 0
  | 2 => some 1
  | 3 => some 2
  | 5 => some 3
  | _ => none
/-- Issues one operation in its slot; a member's copy treats its C operation by 23 R406. Of its own traps and SPDATA of a
word that it reads, those of codeRank come first. -/
def runOp (member : Bool) (s : State) (o : Nat × Instr) : Except Trap State :=
  let s := { s with cur := { s.cur with slot := o.1 } }
  let i : Issue := if member && o.1 = 0 then
      (match o.2 with
        | .barw false ph _ bar => copyBarw ph bar
        | i => issueCopy i)
    else issueOp o.2
  match i s, (s.tile s.cur.tile).badSource s.cur.addr o.1 o.2 with
  | .ok s', none =>
    let t := s.tile s.cur.tile
    let s' := if t.soft = [] then s' else s'.mapTile s.cur.tile (fun q => q.correctWords (t.readsOf o.2))
    .ok (s'.mapTile s.cur.tile Tile.nextSeq)
  | .ok _, some tr => .error tr
  | .error tr, none => .error tr
  | .error tr, some bad => .error (if (codeRank tr.code).isSome then tr else bad)
/-- Issues operations in order. -/
def runOps (member : Bool) : State → List (Nat × Instr) → Except Trap State
  | s, [] => .ok s
  | s, o :: r => match runOp member s o with
    | .ok s' => runOps member s' r
    | .error tr => .error tr

/-- An N operation that writes the scratchpad in its issue sc. -/
def writesNow : Instr → Bool
  | .stap _ (.spad _) _ | .sfwd _ (.spad _) _ _ _ => true
  | _ => false
/-- Issues the operations of a bundle; a scratchpad write of the N slot comes before the reads of the sc (09 R154), and
the trap reported is the one of the slot order (R44). -/
def runAll (member : Bool) (s : State) (ops : List (Nat × Instr)) : Except Trap State :=
  match ops.find? (fun o => writesNow o.2) with
  | none => runOps member s ops
  | some o =>
    match runOps member s (o :: ops.filter (fun q => q.1 != o.1)) with
    | .ok s' => .ok s'
    | .error tr => match runOps member s ops with
      | .error tr' => .error tr'
      | .ok _ => .error tr

/-! ### The choice among traps (R44, 03 R75) -/

/-- The place of such a trap: its code, its slot with 0xF lowest, its reason. -/
def trapKey (tr : Trap) : Nat :=
  (codeRank tr.code).getD 4 * 4096 + (tr.tval.toNat % 16 + 1) % 16 * 16 + tr.tval.toNat / 256 % 16
def leastTrap : List Trap → Option Trap
  | [] => none
  | tr :: r => match leastTrap r with
    | none => some tr
    | some q => if trapKey q < trapKey tr then some q else some tr

/-- Work of a tile's engine queues that has not ended (02 R42). -/
def State.busyQueues (s : State) (n : Nat) : Bool :=
  let t := s.tile n
  let now := s.now n
  s.copiesOf n != [] || (s.ctx (s.ctxOf n)).pubs.any (fun p => p.tile == n) || now < t.mx.load0 || now < t.mx.load1 ||
  t.mx.mseq.isSome || now < t.mx.mseqTo || t.dyn != [] || t.seq.ovls != []
/-- The conditions of R42 that fail. -/
def State.drainTraps (s : State) (n : Nat) : List Trap :=
  let t := s.tile n
  (if t.landedAt = some (s.now n) || t.pend.any (fun p => !p.act.engine) then [drainTrap 0 15] else []) ++
  (if s.busyQueues n then [drainTrap 1 15] else [])
/-- A word of the C class that makes its bundle a hold-point bundle (19 R354): HOLD, and WAITA or BARW with HM set. -/
def holdWord (w : Word32) : Bool :=
  match fld w 24 7 with
  | 0x11 => true
  | 0x12 => w.getLsbD 8
  | 0x15 => w.getLsbD 23
  | _ => false
/-- A hold-point bundle, whatever else its words hold. -/
def Fetched.holdPoint (f : Fetched) : Bool := f.ops.any (fun o => o.1 == 0 && holdWord o.2.1)
/-- The conditions of a hold-point bundle (R344, R354). -/
def holdTraps (f : Fetched) : List Trap :=
  if f.holdPoint then
    (if f.drain then [] else [undef 5 15]) ++
      ((List.range 14).filter (fun k => k != 0 && f.has k)).map (drainTrap 2)
  else []
/-- The traps of the operations of a bundle that come before the slot order. -/
def opTraps (member : Bool) (s : State) (ops : List (Nat × Instr)) : List Trap :=
  let sM := match ops.find? (fun o => writesNow o.2) with
    | some o => (match runOp member s o with | .ok s' => s' | .error _ => s)
    | none => s
  ops.filterMap (fun o =>
    match runOp member (if o.1 = 7 || o.1 = 8 then sM else s) o with
    | .error tr => if (codeRank tr.code).isSome then some tr else none
    | .ok _ => none)

/-- The granules of the instruction store that hold the words of a bundle, in order. -/
def State.fetchWords (s : State) (n : Nat) (f : Fetched) : Words :=
  if (s.tile n).trap.sup then []
  else (List.range f.words.length).filterMap (fun i =>
    let a := (f.addr + 4 * i) % 2 ^ 24
    ((s.tile n).frameOf (s.imageOf n) (a / 4096)).map (fun fr => (0xD5, 64 * fr + a % 4096 / 64)))
/-- SPDATA of a granule of the instruction store that holds a word of the bundle (27 R433); it ranks behind the traps of
codeRank, before the slots (R44). -/
def State.badFetch (s : State) (n : Nat) (f : Fetched) : Option Trap :=
  let t := s.tile n
  if t.bad = [] then none
  else ((s.fetchWords n f).find? t.bad.contains).map (fun w => spdata f.addr 15 0xD5 w.2)

/-! ### The loop stack at the end of a bundle (19 R339, R348) -/

/-- What the end of a bundle leaves: the stack, where to go on, and the exit predicates that are set. -/
structure LoopEnd where
  loops : List LoopEnt
  goto : Option Nat
  exits : List Nat
deriving DecidableEq, Repr
def stepLoops (t : Tile) (now addr : Nat) : List LoopEnt → Except Trap LoopEnd
  | [] => .ok ⟨[], none, []⟩
  | top :: rest =>
    if top.fin != addr then .ok ⟨top :: rest, none, []⟩
    else match top.stream with
      | none =>
        let i := top.index + 1
        if i = top.count then stepLoops t now addr rest
        else .ok ⟨{ top with index := i } :: rest, some top.start, []⟩
      | some (d, l, ex, h) =>
        let e := BitVec.ofNat 16 now - BitVec.ofNat 16 h
        match t.laneAt now d l.toNat with
        | none => .error (slipStream 0xA0 e none d l.toNat 0)
        | some v =>
          if v.stamp != e then .error (slipStream 0xA1 e (some v) d l.toNat 0)
          else if v.eos then (stepLoops t now addr rest).map (fun r => { r with exits := ex.toNat :: r.exits })
          else .ok ⟨{ top with index := if top.index = BitVec.allOnes 32 then top.index else top.index + 1 } :: rest,
                    some top.start, []⟩

/-! ### One issue -/

def setRe (r : List ReEnt) (now : Nat) (o : Nat × Instr) : List ReEnt :=
  if o.1 = 0 then r else ⟨o.1, now, o.2⟩ :: r.filter (fun e => e.slot != o.1)
/-- Events and energy of an issue (28 R466, 29 R481). -/
def State.chargeIssue (s : State) (n : Nat) (ops : List (Nat × Instr)) : State :=
  let c := s.ctxOf n
  ops.foldl (fun s o =>
    if o.1 = 9 || o.1 = 10 then s.charge c 1 else if o.1 = 11 || o.1 = 12 then s.charge c 2 else s)
    ((s.charge c 0).countTile n 2 1)

/-- What is left to do after the operations of an issue: re-issue registers, what the C operation asked for, and the
next bundle (R36, 19 R337-R340). -/
def Tile.afterIssue (t : Tile) (now : Nat) (f : Fetched) (idx : Nat) (member : Bool) (ops : List (Nat × Instr))
    (l : LoopEnd) : Tile :=
  let re := if f.drain && idx = 0 then [] else t.seq.reissue
  let t := t.mapSeq (fun q => { q with reissue := ops.foldl (fun r o => setRe r now o) re })
  if idx = f.rep then
    let t := if t.seq.ctl.transfers || member then t
      else t.mapSeq (fun q => { q with loops := l.loops })
    t.mapSeq (fun q => { q with pc := l.goto.getD f.next, rep := 0, ended := f.isEnd })
  else t.mapSeq (fun q => { q with rep := idx + 1 })

/-- One issue of a bundle: its state, or the trap that is taken with nothing of it executed (R44). -/
def State.tryBundle (s : State) (n : Nat) (f : Fetched) (idx : Nat) (member : Bool) : Except Trap State :=
  let now := s.now n
  let t := s.tile n
  let s := askCtl .none { s with cur := { tile := n, slot := 0, addr := f.addr, idx := idx, next := f.next } }
  let slots := (List.range 14).map (fun k => (k, slotOp t now f idx k))
  let ops := slots.filterMap (fun p => p.2.2.map (fun i => (p.1, i)))
  let bad := slots.flatMap (fun p => p.2.1.map (fun m => undef m p.1))
  let head := match f.headReason with | some m => [undef m 15] | none => []
  let side := slots.flatMap (fun p => sideOps t now f idx p.1)
  let early := head ++ bad ++ holdTraps f ++ opTraps member s ops ++ opTraps member s side ++
    (if f.drain && idx = 0 then s.drainTraps n else [])
  match (leastTrap early).or (if member then none else s.badFetch n f) with
  | some tr => .error tr
  | none => do
    let sc ← runOps member s (ops.filter (fun o => o.1 == 0))
    let l ← if idx = f.rep && !member && !(sc.tile n).seq.ctl.transfers
      then stepLoops t now f.addr t.seq.loops else .ok ⟨t.seq.loops, none, []⟩
    let s' ← runAll member (s.mapTile n (Tile.pushAll s.env (now + 1) (l.exits.map (fun p => .pred p true)))) ops
    let s' := ((s'.chargeIssue n ops).mapTile n (fun t => t.afterIssue now f idx member ops l)).applyCtl n
    let read := if member || t.soft = [] then [] else s.fetchWords n f
    .ok (s'.mapTile n (fun t =>
      { t.correctWords read with
               turn := true, vault := { t.vault with d0 := none },
               seq := { t.seq with
                 holdAt := if f.holdPoint then some now else t.seq.holdAt
                 endAt := if t.seq.ended then some now else t.seq.endAt
                 wait := if t.seq.ended then .none else t.seq.wait } }))

/-! ### Espalier (23 R406, R407) -/

/-- A plot in espalier mode. -/
def State.espPlot (s : State) (n : Nat) : Option Plot :=
  match s.plotOf n with
  | some pl => if pl.tt.esp then some pl else none
  | none => none
/-- Offset of a tile from its bed's lead. -/
def Plot.bedOff (pl : Plot) (lx ly : Nat) : Nat := lx % 2 ^ pl.tt.bedw + ly % 2 ^ pl.tt.bedh
/-- A member of a bed other than its lead. -/
def State.isMember (s : State) (n : Nat) : Bool :=
  match s.espPlot n with
  | some pl => pl.bedOff (s.tile n).lx (s.tile n).ly != 0
  | none => false
/-- The other tiles of a lead's bed. -/
def Plot.bedOf (pl : Plot) (lx ly : Nat) : List (Nat × Nat) :=
  ((List.range (2 ^ pl.tt.bedw * 2 ^ pl.tt.bedh)).map (fun r =>
    (r % 2 ^ pl.tt.bedw, r / 2 ^ pl.tt.bedw))).filterMap (fun d =>
      if d.1 + d.2 = 0 then none else some (pl.tileAt (lx + d.1) (ly + d.2), d.1 + d.2))
/-- Copies of the lead's issue sent to the members of its bed, with the point at which the lead goes on. -/
def State.sendCopies (s : State) (n : Nat) (f : Fetched) (idx now : Nat) : State :=
  match s.espPlot n with
  | some pl =>
    let d := s.duePoint n
    (pl.bedOf (s.tile n).lx (s.tile n).ly).foldl (fun s m =>
      s.mapTile m.1 (fun t => t.mapSeq (fun q => { q with esp := q.esp ++ [⟨now + m.2, idx, f, d⟩] }))) s
  | none => s

/-! ### The turn -/

/-- One issue of a bundle, or its trap. -/
def State.issueBundle (s : State) (n : Nat) (f : Fetched) (idx : Nat) (member : Bool) : State :=
  match s.tryBundle n f idx member with
  | .ok s' => if member || (s.tile n).trap.sup then s' else s'.sendCopies n f idx (s.now n)
  | .error tr => s.takeTrap n tr f.addr idx
/-- FETCH of the bundle at an address (R46, 19 R347). -/
def State.fetchTrap (s : State) (n a page idx : Nat) (skip : Bool) : State :=
  s.takeTrap n ⟨0x04, BitVec.ofNat 64 page, skip⟩ a idx
def State.issueAt (s : State) (n a idx : Nat) : State :=
  match s.fetch n a with
  | .ok f => s.issueBundle n f idx false
  | .error page => s.fetchTrap n a page idx false
/-- The bundle due at the program address; one that is to be passed over is located first (19 R347). -/
def State.issuePc (s : State) (n : Nat) : State :=
  let q := (s.tile n).seq
  if q.skip then
    match s.follow n q.pc with
    | .error page => s.fetchTrap n q.pc page 0 true
    | .ok a => (s.mapTile n (fun t => t.mapSeq (fun q => { q with pc := a, skip := false, rep := 0 }))).issueAt n a 0
  else s.issueAt n q.pc q.rep

def Tile.takeTurn (t : Tile) : Tile := { t with turn := true }
/-- A member that has issued its copy goes on where the lead does (23 R406). -/
def Tile.followLead (t : Tile) (d : Nat × Nat × Bool) : Tile :=
  if t.trap.sup then t else t.mapSeq (fun q => { q with pc := d.1, rep := d.2.1, skip := d.2.2 })
/-- The copy that reaches a member in this sc. -/
def State.issueEsp (s : State) (n : Nat) : State :=
  let now := s.now n
  match (s.tile n).seq.esp.find? (fun c => c.due == now) with
  | some c =>
    ((s.mapTile n (fun t => t.mapSeq (fun q => { q with esp := q.esp.filter (fun d => now < d.due) }))).issueBundle
      n c.bundle c.idx true).mapTile n (fun t => t.followLead c.next)
  | none => s.mapTile n Tile.takeTurn

/-- A tile's turn in this sc, without the plot-wide rule of R355. -/
def State.turnOf (s : State) (n : Nat) : State :=
  match firstOf (s.boundary n) with
  | some p => s.takeBoundary n p
  | none =>
    let s := s.mapTile n (fun t => { t with trap := { t.trap with pending := [] } })
    let t := s.tile n
    if t.seq.ended then s.mapTile n Tile.takeTurn
    else if s.isMember n && !t.trap.sup then s.issueEsp n
    else match t.seq.wait with
      | .none => s.issuePc n
      | .align a =>
        if a ≤ s.now n then (s.mapTile n (fun t => t.mapSeq (fun q => { q with wait := .none }))).issuePc n
        else s.mapTile n Tile.takeTurn
      | _ => s.mapTile n Tile.takeTurn

/-- A tile stands at a hold point, its hold bundle issued. -/
def Tile.holding (t : Tile) : Bool := match t.seq.wait with | .hold _ _ _ => !t.seq.ended | _ => false
def Tile.holdAddr (t : Tile) : Nat := match t.seq.wait with | .hold _ _ a => a | _ => 0
/-- The tiles of a plot that take part in a hold point of this sc (R355): those that had not issued END before it, in
espalier mode leads alone (23 R407). -/
def State.holders (s : State) (k : Nat) (pl : Plot) : List Nat :=
  (s.tilesOf k pl).filter (fun m =>
    let e := (s.tile m).seq.endAt
    (e.isNone || e == some pl.scyc) && !(pl.tt.esp && s.isMember m))
/-- A tile has issued a hold-point bundle in this sc, or will in its turn. -/
def State.meetsHold (s : State) (pl : Plot) (m : Nat) : Bool :=
  ((if (s.tile m).turn then s else s.turnOf m).tile m).seq.holdAt == some pl.scyc

/-- A tile may take its turn: its plot runs and it has not had it in this sc. -/
def State.mayIssue (s : State) (n : Nat) : Bool :=
  match s.plotOf n with
  | some pl => pl.st = .running && !(s.tile n).turn
  | none => false

/-- What a PC sample of this sc shows of a tile whose bundle issues: its address, the INDEX of the innermost loop entry,
and the loop entries (29 R479). -/
def State.showing (s : State) (n : Nat) : Nat × Nat × Nat :=
  let t := s.tile n
  ((s.duePoint n).1, match t.seq.loops with | l :: _ => l.index.toNat | [] => 0, t.seq.loops.length)

/-- BUNDLE_ISSUE: the tile's turn; a hold-point bundle that another tile of the plot does not meet with one of its own
raises SLIP 0xA6 (R355). -/
def State.bundleIssue (s : State) (n : Nat) : State :=
  if !s.mayIssue n then s
  else
    let shown := s.showing n
    let s' := (s.turnOf n).mapTile n (fun t => { t with shown := some shown })
    match (s.tile n).plot, s.plotOf n with
    | some k, some pl =>
      let pc := (s.duePoint n).1
      if (s'.tile n).seq.holdAt == some pl.scyc && !s.isMember n &&
          !(s.holders k pl).all (fun m => m = n || s.meetsHold pl m) then
        s.takeTrap n (trapAt 0x0B pc 0xA6 (s.now n)) pc 0
      else s'
    | _, _ => s'

end Sys2Proof.Machine
end

