-- ==== Sys2Proof/Machine/Reach.lean ====
section
/-! DEFINITION. Accesses to virtual memory by work that runs beside the program: dynamic accesses, Shuttle beats, the
Loom, OVL and the reads of waits (07 R118-R131, 09 R158, R166). -/
namespace Sys2Proof.Machine

/-- Who reaches memory: cluster, context, plot, the tile whose party it is (none: the Loom), whether it is an
asynchronous agent of R118, the request that it stands for at a bank, for work that takes its turn there (09 R158), and
whether it is done at once: the Loom's work, and what a forced stop completes. -/
structure Agent where
  cl : Nat
  ctx : Nat
  plot : Option Plot
  party : Option Party
  async : Bool
  req : Option Req
  atOnce : Bool
deriving DecidableEq, Repr

/-- What an attempt gives: it is done, it has met a fault, it has asked for a walk or for a turn at a bank, or it has
still to wait. -/
inductive Try (α : Type) where
  | done (a : α)
  | fault (f : MemFault)
  | ask
  | wait
/-- An attempt that leaves something changed. -/
def Try.moves {α : Type} : Try α → Bool
  | .wait => false
  | _ => true
/-- An attempt behind one that has left something changed. -/
def Try.moved {α : Type} (q : Try α × State) : Try α × State := (if q.1.moves then q.1 else .ask, q.2)
/-- An attempt on a second thing, where a first one is done. -/
def Try.andThen {α β : Type} (r : Try α × State) (f : α → State → Try β × State) : Try β × State :=
  match r.1 with
  | .done a => f a r.2
  | .fault e => (.fault e, r.2)
  | .ask => (.ask, r.2)
  | .wait => (.wait, r.2)

/-- The agent of a tile's own work: synchronous for its dynamic accesses, which take their turn at a bank. -/
def State.agentOf (s : State) (n : Nat) (async : Bool) (req : Option Req) (atOnce : Bool := false) : Agent :=
  ⟨clusterOf n, s.ctxOf n, s.plotOf n, some (s.who n), async, req, atOnce⟩
/-- The Loom's agent for a context (22 R497, 24 R411) (DEDUCED, log entry 23). -/
def loomAgent (c : Nat) (async : Bool) : Agent := ⟨loomChannel, c, none, none, async, none, true⟩

/-- A write or atomic to a page whose migration has begun is held (R127). -/
def State.heldPage (s : State) (c : Nat) (va : BitVec 64) : Bool :=
  match (s.ctx c).migration with
  | some (m, _) => !va.getLsbD 56 && (rangeOf (s.ctx c).active va).isNone && va.toNat / 2 ^ 19 == m.toNat / 2 ^ 19
  | none => false

/-- The translation of an access; one that waits for a bank keeps the place that it was translated to (R129). -/
def State.reach (s : State) (a : Agent) (va : BitVec 64) (k : AKind) : Xres :=
  match a.req.bind s.placeOf with
  | some pa => .ok [pa]
  | none =>
    if a.atOnce then s.xlateNow a.cl a.ctx a.plot va k a.async else s.xlate a.cl a.ctx a.plot va k a.async
/-- A new request of a cluster has to wait: 256 are outstanding (R128). -/
def State.portFull (s : State) (a : Agent) : Bool :=
  !a.atOnce && (match a.req with | some r => !s.queued r | none => true) && 256 ≤ s.outstanding a.cl
/-- A translation that misses asks for a walk, or joins one that runs (R128). -/
def State.askPage {α : Type} (s : State) (a : Agent) (page : Nat) : Try α × State :=
  let s' := s.askWalk a.cl a.ctx page
  (if s'.walks = s.walks then .wait else .ask, s')

/-! ### Peer modules (07 R125, 22 R386) -/

/-- The number of an access to a peer module, and the state with it used. -/
def State.peerNo (s : State) : Nat × State := (s.freeCtr * 2 ^ 64 + s.mp, { s with freeCtr := s.freeCtr + 1 })
/-- Bytes that a peer module returns to access k: those that this module wrote last, but for bytes that work of other
modules has written since, and bytes it has not written (22 R381, R386; DESIGN CHOICE, log entry 7). -/
def State.peerBytes (s : State) (k pa len : Nat) : List Byte :=
  (List.range len).map (fun i => match afind s.peerMem (pa + i) with
    | some b => if Config.peerWrote k (pa + i) then Config.peerByte k (pa + i) else b
    | none => Config.peerByte k (pa + i))
/-- Bytes written to a peer module. -/
def State.peerWrite (s : State) (pa : Nat) (b : List Byte) : State :=
  { s with peerMem := (b.zip (List.range b.length)).foldl (fun m p => aset m (pa + p.2) p.1) s.peerMem }
/-- The refusal of an access by a peer's inbound windows (R125). -/
def peerRefused : MemFault := (0x11, 0x76, 0)
/-- The faults that the target of access k on a peer module can raise there beside that refusal: a window, a race or an
error of a scratchpad, or a stratum that the marking does not name and an error of its columns (R114, 09 R152, R163, R166). -/
def peerFaults (k pa : Nat) (kind : AKind) : List MemFault :=
  let race (sub : Nat) : MemFault := (0x0F, sub, Config.peerWp k % 512)
  let bad : List MemFault := if kind = .write then [] else [(0x0E, 0x50, 0)]
  if pa / 2 ^ 44 % 16 = 0 then (0x10, 0x62, 0) :: bad
  else [(0x11, 0x74, 0), (0x11, 0x75, 0)] ++ bad ++ (if kind = .read then [race 0x10] else [race 0x11, race 0x12])
/-- An access for a context to an address of a peer module: refused, faulted at its target, or done; it is refused where no
link carries it (30 R490). -/
def State.atPeer {α : Type} (s : State) (c pa : Nat) (kind : AKind) (f : Nat → State → α × State) : Try α × State :=
  let (k, s) := s.peerNo
  if (s.linkTo (pa / 2 ^ 48 % 4)).isNone || Config.peerRefuses k then (.fault peerRefused, s)
  else match (Config.peerFault k).bind (fun i => (peerFaults k pa kind)[i]?) with
    | some e => (.fault e, s.charge c 6)
    | none => ((f k (s.charge c 6)).map .done id)
/-- Traffic of a service controller charged to a context (28 R466). -/
def State.chargeSvc (s : State) (c pa : Nat) : State := if pa / 2 ^ 48 = 0 then s.charge c 7 else s

/-! ### Side ports -/

/-- A turn at the bank of an access (09 R158): done, with the sides taken; else the request waits behind those that are
older. Work that is done at once waits for nothing. -/
def State.sideTurn (s : State) (a : Agent) (pa len : Nat) (write atomic : Bool) : Try Unit × State :=
  match spadOf pa with
  | none => (.done (), s)
  | some (n, o) =>
    let g := o / 64
    let free := a.atOnce || s.sideFree pa len write atomic
    match (if a.atOnce then none else a.req) with
    | none => (if free then .done () else .wait, s)
    | some r =>
      let running : Bool := match s.plotOf n with | some pl => pl.st = .running | none => false
      if free && !s.olderWaits n (g % 48) r then
        (.done (), { s.mapTile n (fun t => { t with
          bankQ := t.bankQ.filter (· != (r, g % 48))
          dynUse := if running then sidesOf (s.now n) g write atomic ++ t.dynUse else t.dynUse }) with
          places := s.places.filter (fun p => p.1 != r) })
      else if (s.tile n).bankQ.contains (r, g % 48) then (.wait, s)
      else (.ask, { s.mapTile n (fun t => { t with bankQ := t.bankQ.filter (fun p => s.wants p.1) ++ [(r, g % 48)] }) with
        places := s.places.filter (fun p => p.1 != r) ++ [(r, pa)] })

/-! ### Accesses -/

/-- A read of bytes of one granule. -/
def State.vaRead (s : State) (a : Agent) (va : BitVec 64) (len : Nat) : Try (List Byte) × State :=
  if s.portFull a then (.wait, s)
  else match s.reach a va .read with
  | .ok [] => (.fault (0x10, 0x62, 0), s)
  | .ok (pa :: _) =>
    Try.andThen (s.sideTurn a pa len false false) (fun _ s' =>
      match s'.dynRead a.party pa len with
      | .ok (b, s') => (.done b, s'.chargeSvc a.ctx pa)
      | .error f => (.fault f, s'))
  | .peer pa => s.atPeer a.ctx pa .read (fun k s => (s.peerBytes k pa len, s))
  | .fault c sub => (.fault (c, sub, 0), s)
  | .miss page => s.askPage a page

/-- Bytes written to every place of a translation. -/
def writePlaces (m : Option Party) (k : Claim) (b : List Byte) : State → List Nat → Except MemFault State
  | s, [] => .ok s
  | s, pa :: r => match s.dynWrite m pa b k with
    | .ok s' => writePlaces m k b s' r
    | .error f => .error f
/-- A write of bytes of one granule at the places of a translation, each of which has its turn: the one place of a
scratchpad, or every copy of a replicated range (R123). -/
def State.placeWrite (s : State) (a : Agent) (pas : List Nat) (b : List Byte) (k : Claim) : Try Unit × State :=
  Try.andThen (match pas with | pa :: _ => s.sideTurn a pa b.length true false | [] => (.done (), s)) (fun _ s' =>
    match writePlaces a.party k b s' pas with
    | .ok s' => (.done (), pas.foldl (fun s pa => s.chargeSvc a.ctx pa) s')
    | .error f => (.fault f, s'))
/-- A write of bytes of one granule. -/
def State.vaWrite (s : State) (a : Agent) (va : BitVec 64) (b : List Byte) (k : Claim) : Try Unit × State :=
  if s.heldPage a.ctx va || s.portFull a then (.wait, s)
  else match s.reach a va .write with
  | .ok pas => s.placeWrite a pas b k
  | .peer pa => s.atPeer a.ctx pa .write (fun _ s => ((), s.peerWrite pa b))
  | .fault c sub => (.fault (c, sub, 0), s)
  | .miss page => s.askPage a page

/-- An atomic on a word: its old value and flags (09 R160, 10 R187). -/
def State.vaAtomic (s : State) (a : Agent) (va : BitVec 64) (op : AtOp) (w64 : Bool) (x cmp : BitVec 64) :
    Try (Nat × Flags) × State :=
  let n := if w64 then 8 else 4
  let lim (v : BitVec 64) : Nat := v.toNat % 2 ^ (8 * n)
  let new (old : Nat) : Nat × Flags := atomNew op (8 * n) old (lim x) (lim cmp)
  if s.heldPage a.ctx va || s.portFull a then (.wait, s)
  else match s.reach a va .atomic with
  | .ok [] => (.fault (0x10, 0x62, 0), s)
  | .ok (pa :: _) =>
    Try.andThen (s.sideTurn a pa n true true) (fun _ s' =>
      let old := leNat (Memory.read s'.mem pa n)
      match (s'.correctIn pa n).dynWrite a.party pa (leBytes n (new old).1) .write true with
      | .ok s' => (.done (old, (new old).2), s'.chargeSvc a.ctx pa)
      | .error f => (.fault f, s'))
  | .peer pa => s.atPeer a.ctx pa .atomic (fun k s =>
      let old := leNat (s.peerBytes k pa n)
      ((old, (new old).2), s.peerWrite pa (leBytes n (new old).1)))
  | .fault c sub => (.fault (c, sub, 0), s)
  | .miss page => s.askPage a page

/-- A write goes to every copy of a replicated range: what SIDE_PORT_SERVE leaves to REPLICA_COMMIT (R123). -/
def State.replicated (s : State) (c : Nat) (va : BitVec 64) : Bool :=
  match rangeOf (s.ctx c).active va with
  | some (_, e) => RangeE.repl e
  | none => false

end Sys2Proof.Machine
end

