-- ==== Sys2Proof/Machine/Shuttle.lean ====
section
/-! DEFINITION. The Shuttle: the elements and beats of a copy (08 R138-R142), its end (R140, R131), and the choice of
the next beat (R141). -/
namespace Sys2Proof.Machine

/-! ### The parts of a cluster's queue -/

def State.mapCopy (s : State) (cl age : Nat) (f : Copy → Copy) : State :=
  s.mapCluster cl (fun k => { k with copies := k.copies.map (fun c => if c.age = age then f c else c) })
/-- The agent of a copy's accesses, for the beat of a first element as it reads or writes. -/
def State.copyAgent (s : State) (cl : Nat) (c : Copy) (first : Nat) (write atOnce : Bool) : Agent :=
  match c.tile with
  | some n => ⟨cl, c.ctx, s.plotOf n, some (s.who n), true, some (.beat cl c.age first write), atOnce⟩
  | none => loomAgent c.ctx true

/-- A copy stops on a fault, which is recorded (R131, R140). -/
def State.copyFault (s : State) (cl : Nat) (c : Copy) (va : BitVec 64) (f : MemFault) : State :=
  let s := s.mapCopy cl c.age (fun c => { c with faulted := true, cause := if c.cause = 0 then f.1 else c.cause })
  match c.tile with
  | some n =>
    (s.recordFault c.ctx c.addr c.lx c.ly c.id va f c.bar 0).count n c.bar 0 0 fNone f.1 0
  | none => s

/-- The bytes of a beat: each element converted (R138, R139). -/
def beatBytes (d : BitVec 512) (rm : Rm) (src : List Byte) : List Byte × Flags :=
  if descCvt d then
    let n := src.length / descSsize d
    let r := (List.range n).map (fun i =>
      convert (descSfmt d) (descDfmt d) rm (d.getLsbD 365) 0 (leNat ((src.drop (i * descSsize d)).take (descSsize d))))
    (r.flatMap (fun q => leBytes (descDsize d) q.1), r.foldl (fun f q => f ||| q.2) fNone)
  else (src, fNone)

/-- A translation for a copy that has to be walked is recorded (29 R477). -/
def State.missRecord (s s' : State) (c : Copy) (va : BitVec 64) : State :=
  if s'.walks != s.walks then s'.record 0x12 c.ctx 0 (descTag c.desc) (va.toNat % 2 ^ 57) else s'

/-- The next beat of a copy is tried: its destination is translated and its source read; nothing where it can make no
progress. The beat completes at the places translated now (07 R127, R129). -/
def State.tryBeat (s : State) (cl : Nat) (c : Copy) : Option State :=
  if !s.beatMay cl c then none
  else
    let a := s.copyAgent cl c c.next false false
    let n := beatLen c.desc c.next
    let src := elemSrc c.desc c.next
    let dst := elemDst c.desc c.next
    let start (pas : List Nat) (peer : Option Nat) (b : List Byte) (s : State) : State :=
      let q := beatBytes c.desc c.rm b
      let s := if c.next = 0 then s.record 0x10 c.ctx 0 (descTag c.desc) c.id.toNat else s
      (s.charge c.ctx 3).mapCopy cl c.age (fun c => { c with
        next := c.next + n, beats := c.beats ++ [⟨c.next, n, dst, pas, peer, q.1, q.2⟩] })
    match s.vaRead a src (n * descSsize c.desc) with
    | (.wait, _) => none
    | (.ask, s') => some (s.missRecord s' c src)
    | (.fault f, s') => some (s'.copyFault cl c src f)
    | (.done b, s') =>
      if s.heldPage c.ctx dst then none
      else match s.reach a dst .write with
      | .fault k sub => some (s'.copyFault cl c dst (k, sub, 0))
      | .miss page =>
        (match (s.askPage a page : Try Unit × State) with
          | (.wait, _) => none
          | (_, s') => some (s.missRecord s' c dst))
      | .ok pas => some (start pas none b s')
      | .peer pa => some (start [] (some pa) b s')

/-- The order in which a Shuttle serves: contexts in round robin, then priority, then age (R141). -/
def Cluster.place (k : Cluster) (c : Copy) : Nat :=
  ((c.ctx + 63 - k.served % 64) % 64) * 2 ^ 80 + (3 - descPrio c.desc) * 2 ^ 78 + c.age
def insertBy {α : Type} (key : α → Nat) (x : α) : List α → List α
  | [] => [x]
  | y :: r => if key x ≤ key y then x :: y :: r else y :: insertBy key x r
def sortBy {α : Type} (key : α → Nat) (l : List α) : List α := l.foldr (insertBy key) []

/-- SHUTTLE_BEAT_ISSUE: the state with the next beat started, or nothing where no copy is ready. -/
def State.beatIssue (s : State) (cl : Nat) : Option State :=
  let k := s.cluster cl
  (sortBy k.place k.copies).findSome? (fun c =>
    (s.tryBeat cl c).map (fun s' => s'.mapCluster cl (fun k => { k with served := c.ctx })))

/-! ### The end of a beat and of a copy (R140) -/

/-- A copy with no beat in flight that has finished, been cancelled, or faulted. -/
def Copy.over (c : Copy) : Bool :=
  c.beats = [] && (c.cancelled || c.faulted || descTotal c.desc ≤ c.next)
/-- The end of a copy of a tile: its arrival, with the bytes never written where it was cancelled. -/
def State.copyEnd (s : State) (cl : Nat) (c : Copy) : State :=
  let s := s.mapCluster cl (fun k => { k with copies := k.copies.filter (fun q => q.age != c.age) })
  let s := s.record 0x11 c.ctx 0 (descTag c.desc) (c.id.toNat + c.written * 2 ^ 32 + c.cause.toNat * 2 ^ 64)
  match c.tile with
  | some n =>
    let left := if c.cancelled && !c.faulted then descBytes c.desc - c.written else 0
    s.count n c.bar 1 left fNone 0 0
  | none => s

/-- One beat in flight completes at the places it was translated to; nothing where its write has to wait. -/
def State.beatDone (s : State) (cl : Nat) (c : Copy) (b : Beat) (atOnce : Bool) : Option State :=
  let drop (s : State) : State := s.mapCopy cl c.age (fun c => { c with beats := c.beats.filter (· != b) })
  let r := match b.peer with
    | some pa => s.atPeer c.ctx pa .write (fun _ s => ((), s.peerWrite pa b.bytes))
    | none => s.placeWrite (s.copyAgent cl c b.first true atOnce) b.pas b.bytes .awrite
  match r.1 with
  | .wait => none
  | .ask => some r.2
  | .fault f => some ((drop r.2).copyFault cl c b.dst f)
  | .done _ =>
    let k := b.bytes.length
    let s := (drop r.2).mapCopy cl c.age (fun c => { c with written := c.written + k, flags := c.flags ||| b.flags })
    match c.tile with
    | some n => some ((s.count n c.bar 0 k b.flags 0 0).countTile n 8 k)
    | none => some s

/-- The tile copies' part of SHUTTLE_BEAT_COMPLETE: a copy that is over ends, else the oldest beat that can completes. -/
def State.beatComplete (s : State) (cl : Nat) : Option State :=
  let k := s.cluster cl
  match k.copies.find? (fun c => c.over && c.tile.isSome) with
  | some c => some (s.copyEnd cl c)
  | none => k.copies.findSome? (fun c => c.beats.findSome? (fun b => s.beatDone cl c b false))

end Sys2Proof.Machine
end

