-- ==== Sys2Proof/Machine/Dynamic.lean ====
section
/-! DEFINITION. Dynamic accesses as they are served and end (10 R187-R192), publishes (07 R121, 08 R143), the reads of
waits (19 R353) and overlay loads (19 R360). -/
namespace Sys2Proof.Machine

/-! ### Service -/

/-- The tile's own write of an LDR's granule or of an atomic's old value, as its own asynchronous party (R187, R189). -/
def State.localWrite (s : State) (n a : Nat) (b : List Byte) (req : Option Req) (atOnce : Bool) : Try Unit × State :=
  s.placeWrite (s.agentOf n true req atOnce) [spadBase n + a] b .awrite
/-- An access that has met a fault writes nothing (R188). -/
def State.dynFail (s : State) (n : Nat) (d : Dyn) (f : MemFault) : State :=
  s.mapTile n (fun t => t.mapDyn d.id (fun d => { d with fault := some ⟨f.1, BitVec.ofNat 8 f.2.1, d.va,
    BitVec.ofNat 9 f.2.2⟩ }))
def State.dynServed (s : State) (n : Nat) (d : Dyn) (f : Flags) : State :=
  s.mapTile n (fun t => t.mapDyn d.id (fun d => { d with served := true, flags := f }))

/-- One attempt at an access: an LDR reads its target and then writes its own granule; a remote atomic is performed and
then its old value written; an STR writes its target (R187-R190) (DEDUCED, log entry 29). -/
def State.tryDyn (s : State) (n : Nat) (d : Dyn) (atOnce : Bool) : Try Flags × State :=
  let r := some (Req.dyn n d.id)
  let a := s.agentOf n false r atOnce
  let store (f : Dyn → Dyn) (s : State) : State := s.mapTile n (fun t => t.mapDyn d.id f)
  match d.kind with
  | .ldr =>
    let put (b : List Byte) (s : State) : Try Flags × State :=
      Try.andThen (s.localWrite n d.loc b r atOnce) (fun _ s => (.done fNone, s))
    (match d.data with
      | some b => put b s
      | none => Try.andThen (s.vaRead a d.va 64) (fun b s => Try.moved (put b (store (fun d => { d with data := some b }) s))))
  | .str => Try.andThen (s.vaWrite a d.va (d.data.getD []) .write) (fun _ s => (.done fNone, s))
  | .atom op w64 =>
    -- its claim of the parameter granule is made as it is performed, so that it writes nothing where it faults (R188)
    let back (b : List Byte) (f : Flags) (s : State) : Try Flags × State :=
      Try.andThen (s.sideTurn (s.agentOf n true (some (.back n d.id)) atOnce) (spadBase n + d.loc + 16) 8 true false)
        (fun _ s => (.done f, s.spadWrite n (d.loc + 16) b))
    (match d.data with
      | some b => back b d.flags s
      | none => Try.andThen (s.vaAtomic a d.va op w64 d.x d.cmp) (fun q s' =>
          match s'.dynClaim (some (s'.who n)) n (d.loc + 16) 8 .awrite false with
          | .ok tags =>
            let b := leBytes 8 q.1
            Try.moved (back b q.2 (store (fun d => { d with data := some b, flags := q.2 })
              (s'.mapTile n (fun t => { t with tags := tags }))))
          | .error f => (.fault f, s)))
/-- What the attempt leaves. -/
def State.serveDyn (s : State) (n : Nat) (d : Dyn) : Option State :=
  if !s.dynMay n d then none
  else
    let r := s.tryDyn n d false
    match r.1 with
    | .done f => some (r.2.dynServed n d f)
    | .fault f => some (r.2.dynFail n d f)
    | .ask => some r.2
    | .wait => none
/-- A write that commits to every copy of a replicated range (R123). -/
def State.commits (s : State) (n : Nat) (d : Dyn) : Bool := d.kind == .str && s.replicated (s.ctxOf n) d.va
/-- SIDE_PORT_SERVE and REPLICA_COMMIT: the access is performed, if it may be. -/
def State.serveRow (s : State) (n id : Nat) (replica : Bool) : State :=
  match s.findDyn n id with
  | some d => if s.commits n d == replica then (s.serveDyn n d).getD s else s
  | none => s

/-! ### The end of an access (R188) -/

/-- DYNAMIC_ACCESS_END: the counts, the flags and the fault of an access that has performed; the record of a remote
atomic holds COPYID 0 (DESIGN CHOICE, log entry 58). -/
def State.endDyn (s : State) (n id : Nat) : State :=
  match s.findDyn n id with
  | none => s
  | some d =>
    if !d.performed then s
    else
      let c := s.ctxOf n
      let t := s.tile n
      let s := (s.mapTile n (fun t => { t with dyn := t.dyn.filter (fun q => q.id != id) })).countTile n 9 1
      let s := s.charge c 4
      match d.fault with
      | some f =>
        let agent := match d.kind with | .atom _ _ => 3 | _ => 1
        (s.recordFault c d.addr t.lx t.ly 0 d.va (f.cause, f.sub.toNat, f.wp.toNat) d.bar agent).count n d.bar 1 0
          fNone f.cause 0
      | none =>
        match d.kind with
        | .atom _ _ =>
          (s.mapTile n (fun t => t.mapRegs (fun r => { r with pflags := r.pflags ||| d.flags }))).count n d.bar 1 8
            fNone 0 0
        | _ => s.count n d.bar 1 64 fNone 0 0

/-- The row that the dynamic accesses of a tile take next. -/
inductive DynRow where
  | serve (id : Nat) | commit (id : Nat) | done (id : Nat)
deriving DecidableEq, Repr
def State.dynRow (s : State) (n : Nat) : Option DynRow :=
  (s.tile n).dyn.findSome? (fun d =>
    if d.performed then some (.done d.id)
    else if (s.serveDyn n d).isSome then some (if s.commits n d then .commit d.id else .serve d.id) else none)

/-! ### Publishes (07 R121, 08 R143-R144) -/

/-- A publish has reached its swap point: the tile's earlier work is performed, and no copy that has started on the range
is still under way. -/
def State.pubReady (s : State) (c : Nat) (p : Pub) : Bool :=
  p.sc + 4 < s.now p.tile && !((s.tile p.tile).dyn.any (fun d => d.id < p.dyn)) &&
  (match s.pubTarget c (s.plotOf p.tile) p.va with
    | .ok (_, e) => !(s.clusters.any (fun k => k.2.copies.any (fun q => q.ctx == c && 0 < q.next && copyNames q.desc e)))
    | .error _ => true)
/-- The order of publishes: by sc, then rank (R143). -/
def Pub.place (p : Pub) : Nat := p.sc * 2048 + p.rank
/-- Two publishes name one range. -/
def State.pubSame (s : State) (c : Nat) (p q : Pub) : Bool :=
  match s.pubTarget c (s.plotOf p.tile) p.va, s.pubTarget c (s.plotOf q.tile) q.va with
  | .ok (i, _), .ok (j, _) => i == j
  | _, _ => false
/-- The publish of a context that is taken next; those of one range are taken in their order (R143). -/
def State.nextPub (s : State) (c : Nat) : Option Pub :=
  let l := sortBy Pub.place (s.ctx c).pubs
  l.find? (fun p => s.pubReady c p && !(l.any (fun q => q.place < p.place && s.pubSame c q p)))
/-- PUBLISH_SWAP: FSEL toggles and the barrier is counted, or the fault is recorded: with COPYID 0, and with an arrival
that carries the error (DESIGN CHOICE, log entries 58 and 60). -/
def State.publishSwap (s : State) (c : Nat) : State :=
  match s.nextPub c with
  | none => s
  | some p =>
    let r := s.pubTarget c (s.plotOf p.tile) p.va
    let s := s.mapCtx c (fun x => { x with pubs := x.pubs.erase p })
    match r with
    | .ok (i, e) =>
      let put (l : Store 256) : Store 256 := sset 0 l i (RangeE.swap e)
      (s.mapCtx c (fun x => { x with
        active := put x.active
        ranges := if sget 0 x.ranges i = e then put x.ranges else x.ranges })).count p.tile p.bar 1 0 fNone 0 0
    | .error f =>
      (s.recordFault c p.addr p.lx p.ly 0 p.va f p.bar 2).count p.tile p.bar 1 0 fNone f.1 0

/-! ### Words that waits compare (19 R353) -/

/-- The compare of R353 on W-bit words. -/
def waitHolds (cmp : Cmp) (w64 : Bool) (word x : Nat) : Bool :=
  let w := if w64 then 64 else 32
  let m := 2 ^ w
  let d := (word % m + m - x % m) % m
  match cmp with
  | .eq => d = 0
  | .ne => d != 0
  | .ge => d < 2 ^ (w - 1)
  | .lt => 2 ^ (w - 1) ≤ d
/-- The granule that a wait's read reaches in its owner's scratchpad. -/
def State.waitGran (s : State) (n : Nat) (va : BitVec 64) : Nat :=
  match s.reach (s.agentOf n false (some (.wait n))) va .read with
  | .ok (pa :: _) => pa % 2 ^ 20 / 64
  | _ => 0
/-- The trap of a wait's read that faults (R353): TVAL as R130 gives, or as R168 gives for a RACE. -/
def waitTrap (addr : Nat) (va : BitVec 64) (gran : Nat) (f : MemFault) : Trap :=
  if f.1 = 0x0F then raceTrap addr 0 (f.2.1 + 0x80) gran f.2.2
  else ⟨f.1, BitVec.ofNat 64 (f.2.1 * 2 ^ 57 + va.toNat % 2 ^ 57), false⟩
/-- A read of a word by a tile's wait: whether the compare holds. -/
def State.waitRead (s : State) (n : Nat) (va : BitVec 64) (cmp : Cmp) (w64 : Bool) (x : BitVec 64) : Try Bool × State :=
  Try.andThen (s.vaRead (s.agentOf n false (some (.wait n))) va (if w64 then 8 else 4))
    (fun b s => (.done (waitHolds cmp w64 (leNat b) x.toNat), s))

/-- A WAITA's read is in its place among the tile's dynamic accesses: earlier ones to its granule are performed, acquire
LDRs have ended, and FENCEs hold it no more (R191, R353, R357). -/
def State.waitOrdered (s : State) (n : Nat) (va : BitVec 64) : Bool :=
  let t := s.tile n
  !(t.dyn.any (fun q => (!q.atTarget && q.va.toNat / 64 == va.toNat / 64) || (q.kind == .ldr && q.order.isSome))) &&
  t.fences.all (fun f => f.2 + 4 < s.now n && !(t.dyn.any (fun q => q.id < f.1)))
/-- A WAITA may read: it waits, its sc has begun, and it has not read in it. -/
def State.waitaMay (s : State) (n : Nat) : Bool :=
  let t := s.tile n
  match t.seq.wait with
  | .waita va cmp w64 x _ => t.turn && !t.polled && s.waitOrdered n va && (s.waitRead n va cmp w64 x).1.moves
  | _ => false
/-- WAITA_READ_RETURN: the read returns; the tile resumes in the next sc, reads again, or traps at the boundary. -/
def State.waitaReturn (s : State) (n : Nat) : State :=
  match (s.tile n).seq.wait with
  | .waita va cmp w64 x addr =>
    if !s.waitaMay n then s
    else
      let r := s.waitRead n va cmp w64 x
      let read (s : State) : State := s.mapTile n (fun t => { t with polled := true })
      match r.1 with
      | .done true => (read r.2).mapTile n (fun t => t.mapSeq (fun q => { q with wait := .none }))
      | .fault f => (read r.2).mapTile n (fun t => t.addBoundary 5 (waitTrap addr va (s.waitGran n va) f) (some addr))
      | .done false => read r.2
      | _ => r.2
  | _ => s

/-! ### Overlay loads (19 R360) -/

/-- An image page read for a tile as 64-byte lines, from those read before: the bytes, what became of the rest. -/
def pageRead (n : Nat) (va : BitVec 64) : (lines : Nat) → List Byte → State → List Byte × Try Unit × State
  | 0, b, s => (b, .done (), s)
  | k + 1, b, s =>
    match s.vaRead (s.agentOf n true (some (.ovl n (b.length / 64)))) (va + BitVec.ofNat 64 b.length) 64 with
    | (.done x, s') => pageRead n va k (b ++ x) s'
    | (.fault f, s') => (b, .fault f, s')
    | (.ask, s') => (b, .ask, s')
    | (.wait, s') => (b, .wait, s')
/-- Words of the instruction store written from a frame's start on. -/
def loadFrame (st : Store 32) (frame : Nat) (b : List Byte) : Store 32 :=
  (List.range 1024).foldl (fun st i => sset 0 st (1024 * frame + i) (BitVec.ofNat 32 (leNat ((b.drop (4 * i)).take 4)))) st
/-- The virtual address of a code page of the tile's image. -/
def State.pageVa (s : State) (n page : Nat) : BitVec 64 :=
  match s.plotOf n with | some pl => pl.tt.codeVa + BitVec.ofNat 64 (4096 * page) | none => 0
/-- The oldest overlay load of a tile ends: its page is resident and counted, or its fault is recorded; nothing where
its read has to wait. -/
def State.tryOvl (s : State) (n : Nat) : Option State :=
  match (s.tile n).seq.ovls with
  | [] => none
  | o :: r =>
    let va := s.pageVa n o.page
    let img := s.imageOf n
    let t := s.tile n
    let c := s.ctxOf n
    let q := pageRead n va (64 - o.bytes.length / 64) o.bytes s
    let kept : State := q.2.2.mapTile n (fun t => t.mapSeq (fun k => { k with ovls := { o with bytes := q.1 } :: r }))
    match q.2.1 with
    | .done _ =>
      let s := q.2.2.mapTile n (fun t => (t.heal ((List.range 64).map (fun i => (0xD5, 64 * o.frame + i)))).mapSeq
        (fun k => { k with ovls := r, istore := loadFrame k.istore o.frame q.1,
                           ftags := sset 0 k.ftags o.frame (pageTag img o.page) }))
      some (s.count n o.bar 1 4096 fNone 0 0)
    | .fault f =>
      let s := q.2.2.mapTile n (fun t => t.mapSeq (fun k => { k with ovls := r }))
      some ((s.recordFault c o.addr t.lx t.ly 0 va f o.bar 4).count n o.bar 1 0 fNone f.1 0)
    | .ask => some kept
    | .wait => if q.1.length = o.bytes.length then none else some kept
/-- OVL_LOAD_COMPLETE. -/
def State.ovlComplete (s : State) (n : Nat) : State := (s.tryOvl n).getD s

end Sys2Proof.Machine
end

