-- ==== Sys2Proof/Machine/Timetable.lean ====
section
/-! DEFINITION. Reading and admitting a timetable (23 R389-R400, 28 R467-R469). -/
namespace Sys2Proof.Machine

/-- Bits lo to lo + n - 1 of a number. -/
def bitsOf (x lo n : Nat) : Nat := x / 2 ^ lo % 2 ^ n

/-! ### Reading (R391) -/

/-- Bytes that the Loom reads at a virtual address as an asynchronous agent, in pieces that stay within 64 bytes. -/
def loomBytes (a : Agent) (s : State) : (fuel : Nat) → (va : BitVec 64) → (len : Nat) → Try (List Byte) × State
  | 0, _, _ => (.done [], s)
  | fuel + 1, va, len =>
    if len = 0 then (.done [], s)
    else
      let k := Nat.min len (64 - va.toNat % 64)
      Try.andThen (s.vaRead a va k) (fun b s =>
        Try.andThen (loomBytes a s fuel (va + BitVec.ofNat 64 k) (len - k)) (fun b' s => (.done (b ++ b'), s)))
/-- Bytes read by the Loom for a context, or nothing where a byte cannot be read. -/
def State.loomRead (s : State) (c : Nat) (va : BitVec 64) (len : Nat) : Option (List Byte) :=
  match (loomBytes (loomAgent c true) s (len / 64 + 2) va len).1 with
  | .done b => some b
  | _ => none

/-- The traffic of such a read, charged to the context (28 R466). -/
def State.loomCharge (s : State) (c : Nat) (va : BitVec 64) (len : Nat) : State :=
  (loomBytes (loomAgent c true) s (len / 64 + 2) va len).2

/-- Entries of a size, as numbers. -/
def entries (size : Nat) (b : List Byte) : List Nat :=
  (List.range (b.length / size)).map (fun i => leNat ((b.drop (i * size)).take size))

/-! ### Tables -/

/-- A table as read: its bytes, whether it could be read, and whether its pointer is bad. -/
structure TabRead where
  bytes : List Byte
  unread : Bool
  bad : Bool
deriving DecidableEq, Repr
/-- A table of n entries of a size (R391). -/
def State.table (s : State) (c va n size : Nat) (inRange : Bool) : TabRead :=
  if n = 0 || !inRange then ⟨[], false, !inRange⟩
  else if va = 0 then ⟨[], false, true⟩
  else match s.loomRead c (BitVec.ofNat 64 va) (n * size) with
    | some b => ⟨b, false, va % 64 != 0⟩
    | none => ⟨[], true, va % 64 != 0⟩

/-- A window entry's fault (R392, R400): 0x02 or 0x05. -/
def winBad (x : Nat) : List (Bool × Nat) :=
  let kind := bitsOf x 124 4
  let size := bitsOf x 32 32
  let base := bitsOf x 0 32
  let svcw := bitsOf x 115 1
  [(2 < kind || bitsOf x 64 51 != 0 || (kind != 1 && bitsOf x 118 6 != 0) || 48 ≤ bitsOf x 118 6, 2),
   (kind < 2 && (size = 0 || spadSize < base + size), 2), (kind < 2 && (size % 64 != 0 || base % 64 != 0), 5),
   (kind = 2 && svcw = 1 && (size != 0 || base != 0), 2), (kind = 2 && svcw = 0 && size = 0, 2),
   (kind = 2 && 4096 < base + size, 5)]
def winOf (x : Nat) : Option Win :=
  if bitsOf x 124 4 < 2 then some ⟨bitsOf x 124 4 = 1, bitsOf x 118 6, bitsOf x 0 32, bitsOf x 32 32⟩ else none
def vwinOf (x : Nat) : Option VWin :=
  if bitsOf x 124 4 = 2 then some ⟨bitsOf x 116 2, bitsOf x 115 1 = 1, bitsOf x 0 32, bitsOf x 32 32⟩ else none
/-- Two spans of a list overlap. -/
def overlap : List (Nat × Nat) → Bool
  | [] => false
  | p :: r => r.any (fun q => p.1 < q.1 + q.2 && q.1 < p.1 + p.2) || overlap r
def dup : List Nat → Bool
  | [] => false
  | x :: r => r.contains x || dup r
/-- The conditions of the window table as a whole (R400). -/
def winsBad (ws : List Win) (vs : List VWin) : List (Bool × Nat) :=
  [(overlap (ws.map (fun w => (w.base, w.size))), 5), (16 < ws.length, 5), (dup (vs.map (·.st)), 5),
   (2 < (vs.filter (·.svc)).length, 5)]

/-- A compare code (R343). -/
def cmpOf (k : Nat) : Cmp := if k = 0 then .eq else if k = 1 then .ne else if k = 2 then .ge else .lt
/-- A hold entry and whether a field of it is bad (R393). -/
def holdOf (x : Nat) : HoldEnt × Bool :=
  let cond := bitsOf x 126 2
  let w64 := bitsOf x 97 1 = 1
  let va := bitsOf x 128 64
  let word := bitsOf x 192 64 != 0 || va != 0 || bitsOf x 97 3 != 0
  let bar := bitsOf x 96 1 != 0 || bitsOf x 90 6 != 0
  let c : HoldCond := if cond = 1 then .bar (bitsOf x 90 6) (bitsOf x 96 1 = 1)
    else if cond = 2 then .word (BitVec.ofNat 64 va) (cmpOf (bitsOf x 98 2)) w64
      (BitVec.ofNat 64 (if w64 then bitsOf x 192 64 else bitsOf x 192 32))
    else .none
  (⟨c, bitsOf x 100 20, bitsOf x 125 1 = 1⟩,
   bitsOf x 120 5 != 0 || bitsOf x 0 90 != 0 || cond = 3 || (cond != 2 && word) || (cond != 1 && bar) ||
   (cond = 1 && 48 ≤ bitsOf x 90 6) || (cond = 2 && va % (if w64 then 8 else 4) != 0))
/-- A barrier entry and whether a field of it is bad (R395), for a plot of 2^pw × 2^ph tiles; no bed is larger than 32 x 16
(R390, 09 R169). -/
def barOf (pw ph x : Nat) : BarEnt × Bool :=
  let scope := bitsOf x 72 2
  let bw := bitsOf x 69 3
  let bh := bitsOf x 66 3
  (⟨bitsOf x 74 6, BitVec.ofNat 2 scope, BitVec.ofNat 3 bw, BitVec.ofNat 3 bh, BitVec.ofNat 16 (bitsOf x 80 16),
    BitVec.ofNat 32 (bitsOf x 96 32)⟩,
   48 ≤ bitsOf x 74 6 || scope = 3 || bitsOf x 0 66 != 0 || (scope != 1 && (bw != 0 || bh != 0)) ||
   (scope = 1 && (Nat.min pw 5 < bw || Nat.min ph 4 < bh)))
/-- Tiles of the instances that a barrier entry forms in a plot of w x h tiles (09 R164, R170). -/
def BarEnt.size (e : BarEnt) (w h : Nat) : Nat :=
  match e.scope.toNat with
  | 1 => Nat.min (2 ^ e.bedw.toNat) w * Nat.min (2 ^ e.bedh.toNat) h
  | 2 => w * h
  | _ => 1
/-- A data entry and whether a field of it is bad (R396). -/
def dataOf (x : Nat) : DataEnt × Bool :=
  let size := bitsOf x 32 32
  let spad := bitsOf x 0 32
  (⟨BitVec.ofNat 64 (bitsOf x 64 64), size, spad⟩,
   bitsOf x 64 64 % 64 != 0 || size = 0 || size % 64 != 0 || spad % 64 != 0 || spadSize < spad + size)
/-- A must-save item and whether a field of it is bad (28 R467). -/
def mustOf (tiles : Nat) (vs : List VWin) (x : Nat) : MustEnt × Bool :=
  let kind := bitsOf x 14 3
  let base := bitsOf x 192 64
  let size := bitsOf x 128 64
  let st := bitsOf x 12 2
  let all := bitsOf x 11 1 = 1
  let rank := bitsOf x 0 11
  (⟨base, size, kind, st, all, rank⟩,
   bitsOf x 17 111 != 0 || 4 < kind || (!all && tiles ≤ rank) || (kind = 4 && all) ||
   (kind != 1 && kind != 2 && (base != 0 || size != 0)) ||
   (kind = 1 && (base % 64 != 0 || size = 0 || size % 64 != 0 || spadSize < base + size)) ||
   (kind = 2 && (size = 0 || !(vs.any (fun v => v.st = st && base + size ≤ (if v.svc then 4096 else v.size))))))
/-- A variant entry with its resume table, and whether a field of it is bad (R397). -/
def variantOf (resume : List Nat) (x : Nat) : Variant × Bool :=
  (⟨(List.range resume.length).foldl (fun m i => sset 0 m i (BitVec.ofNat 32 (resume.getD i 0))) [],
    BitVec.ofNat 32 (bitsOf x 160 32), bitsOf x 144 16, bitsOf x 136 2, bitsOf x 128 7, bitsOf x 96 32⟩,
   bitsOf x 144 16 = 0 || 2800 < bitsOf x 144 16 || bitsOf x 138 6 != 0 || bitsOf x 135 1 != 0 ||
   bitsOf x 128 7 = 0 || 64 < bitsOf x 128 7 || bitsOf x 96 32 = 0 || bitsOf x 0 96 != 0 ||
   resume.any (fun w => 2 ^ 24 ≤ w))

/-! ### Charges (28 R468-R469) -/

/-- µJ of an item on the module's own tiles of a plot: on all of them, or on the one of its rank, if that is here (R468,
R469). -/
def MustEnt.cost (m : MustEnt) (own : List Nat) : Nat :=
  let k := if m.all then own.length else if own.contains m.rank then 1 else 0
  match m.kind with
  | 0 => 118 * 20 * k
  | 1 => (m.size + 4095) / 4096 * 20 * k
  | 2 => (m.size + 1) / 2 * 24 * k
  | 3 => 20 * k
  | _ => 100
/-- The ranks of a timetable that are the module's own (R389). -/
def State.ownRanks (s : State) (t : Timetable) : List Nat :=
  if t.musts.all (·.all) then List.range (Nat.min t.w 32 * Nat.min t.h 16)
  else (List.range (Nat.min t.w 32 * Nat.min t.h 16)).map (fun i =>
    (s.firstY t.h + i / Nat.min t.w 32) * t.w + s.firstX t.w + i % Nat.min t.w 32)
def State.costOf (s : State) (t : Timetable) : Nat := (t.musts.map (fun m => m.cost (s.ownRanks t))).foldl (· + ·) 0
/-- The reserve in use with a further declaration of a context (R469). -/
def State.reserve (s : State) (c : Nat) (t : Timetable) : Nat :=
  let on := (s.plots.filter (fun p => p.2.charged)).map (·.2)
  let cs := (if t.musts = [] then [] else [c]) ++ on.map (·.ctx)
  400000 + 500 * cs.eraseDups.length + s.costOf t + (on.map (fun p => s.costOf p.tt)).foldl (· + ·) 0

/-! ### Admission (R400) -/

/-- Bits set among the low four. -/
def pop4 (x : Nat) : Nat := x % 2 + x / 2 % 2 + x / 4 % 2 + x / 8 % 2
/-- The panels that a timetable needs (11 R197). -/
def Timetable.need (t : Timetable) : Nat := if t.panels = 0 then 44 else t.panels
/-- A tile can take part in a plot of a timetable (11 R197, 04 R82). -/
def Tile.meets (q : Tile) (t : Timetable) : Bool := !q.withheld && t.need ≤ q.panels && q.vault.svcMark == t.svc
/-- The tiles of the module by number. -/
def Model.tileNos (m : Model) : List Nat := List.range m.tiles
/-- A keep store is present (00 R2, 28 R467). -/
def Model.hasKeep : Model → Bool
  | .d48n => false
  | _ => true

/-- The lowest code that applies (R400). -/
def lowestCode (l : List (Bool × Nat)) : Option Nat :=
  (l.filter (·.1)).foldl (fun m p => match m with | none => some p.2 | some k => some (Nat.min k p.2)) none

/-- The tables that a descriptor names, each by its place and its bytes, but for the resume tables of the variants (R391). -/
def tableSpans (d : Nat) : List (Nat × Nat) :=
  let f (lo n : Nat) : Nat := bitsOf d lo n
  [(f 960 64, 124), (f 896 64, 16 * f 311 5), (f 832 64, 32 * f 304 7), (f 768 64, 16 * f 299 5),
   (f 704 64, 32 * (f 295 4 + 1)), (f 640 64, 4 * 2 ^ f 253 3 * 2 ^ f 250 3), (f 576 64, 32 * f 290 5), (f 157 64, 16 * f 87 6),
   (f 93 64, 16 * f 82 5)].filter (·.1 != 0)
/-- The traffic of reading a descriptor and its tables (28 R466). -/
def State.ttCharge (s : State) (c : Nat) (desc : BitVec 64) : State :=
  match s.loomRead c desc 128 with
  | none => s.loomCharge c desc 128
  | some raw => (tableSpans (leNat raw)).foldl (fun s t => s.loomCharge c (BitVec.ofNat 64 t.1) t.2) (s.loomCharge c desc 128)
/-- A timetable as the Loom reads it for a context, with the causes for which it would be refused (R400); nothing where the
descriptor cannot be read. -/
def State.readTt (s : State) (c : Nat) (desc : BitVec 64) : Option (Timetable × List (Bool × Nat)) :=
  match s.loomRead c desc 128 with
  | none => none
  | some raw =>
    let d := leNat raw
    let f (lo n : Nat) : Nat := bitsOf d lo n
    let pw := f 253 3
    let ph := f 250 3
    let w := 2 ^ pw
    let h := 2 ^ ph
    let tmpl := s.table c (f 960 64) (if f 960 64 = 0 then 0 else 31) 4 true
    let win := s.table c (f 896 64) (f 311 5) 16 (f 311 5 ≤ 20)
    let fixed0 := f 304 7 = 1 && f 832 64 = 0
    let hold := s.table c (f 832 64) (if fixed0 then 0 else f 304 7) 32 (1 ≤ f 304 7 && f 304 7 ≤ 64)
    let walk := s.table c (f 768 64) (f 299 5) 16 (f 299 5 ≤ 16)
    let var := s.table c (f 704 64) (f 295 4 + 1) 32 true
    let off := s.table c (f 640 64) (if f 640 64 = 0 then 0 else w * h) 4 (pw ≤ 6 && ph ≤ 5)
    let must := s.table c (f 576 64) (f 290 5) 32 (f 290 5 ≤ 16)
    let bar := s.table c (f 157 64) (f 87 6) 16 (f 87 6 ≤ 48)
    let dat := s.table c (f 93 64) (f 82 5) 16 (f 82 5 ≤ 16)
    let vars := entries 32 var.bytes
    let res := vars.map (fun x => s.table c (bitsOf x 192 64) (if bitsOf x 192 64 = 0 then 0 else 64) 4 true)
    let tabs := [tmpl, win, hold, walk, var, off, must, bar, dat] ++ res
    let winE := entries 16 win.bytes
    let wins := winE.filterMap winOf
    let vwins := winE.filterMap vwinOf
    let holds := (if fixed0 then [0] else entries 32 hold.bytes).map holdOf
    let walks := entries 16 walk.bytes
    let bars := (entries 16 bar.bytes).map (barOf pw ph)
    let datas := (entries 16 dat.bytes).map dataOf
    let musts := (entries 32 must.bytes).map (mustOf (w * h) vwins)
    let vs := (vars.zip res).map (fun p => variantOf (entries 4 p.2.bytes) p.1)
    let tmpls := entries 4 tmpl.bytes
    let svc := f 238 4
    let t : Timetable := {
      imageId := BitVec.ofNat 32 (f 352 32), npage := f 340 12 + 1, codeVa := BitVec.ofNat 64 (f 512 64),
      entry := f 316 24, w := w, h := h, bedw := f 247 3, bedh := f 244 3, esp := f 243 1 = 1, keep := f 242 1 = 1,
      svc := BitVec.ofNat 4 svc, nstrata := f 235 3, panels := f 229 6, holdmax := f 221 8,
      rngKey0 := BitVec.ofNat 32 (f 384 32), rngKey1 := BitVec.ofNat 32 (f 416 32),
      rngCtr := BitVec.ofNat 64 (f 448 64),
      templates := (List.range tmpls.length).foldl (fun m i => sset 0 m i (BitVec.ofNat 32 (tmpls.getD i 0))) [],
      offsets := entries 4 off.bytes, wins := wins, vwins := vwins, holds := holds.map (·.1),
      walks := walks.map (BitVec.ofNat 128), bars := bars.map (·.1), datas := datas.map (·.1),
      musts := musts.map (·.1), variants := vs.map (·.1),
      raw := raw ++ tabs.flatMap (·.bytes) }
    let bad := desc.toNat % 64 != 0 || tabs.any (·.bad) || f 256 34 != 0 || f 0 82 != 0 || f 448 2 != 0 || 6 < pw || 5 < ph ||
      2 < pop4 svc || 4 - pop4 svc < t.nstrata || t.panels % 4 != 0 || 48 < t.panels || t.holdmax = 0 ||
      200 < t.holdmax || t.entry % 4 != 0 || t.npage ≤ t.entry / 4096 || f 512 64 % 64 != 0 ||
      (holds.head?.map (·.1) != some ⟨.none, 0, false⟩) || holds.any (·.2) ||
      walks.any (fun x => 2 ^ 32 ≤ bitsOf x 0 32 * bitsOf x 32 32 * bitsOf x 64 32 * bitsOf x 96 32) ||
      tmpls.any (fun x => bitsOf x 28 4 != 0) || bars.any (·.2) || dup (t.bars.map (·.bar)) || datas.any (·.2) ||
      overlap (t.datas.map (fun e => (e.spad, e.size))) || musts.any (·.2) || vs.any (·.2)
    let codes := [(tabs.any (·.unread), 0x01), (bad, 0x02),
        (!s.spanUp w h || (s.model = .d24 && 4 < pw) || Nat.min pw 5 < t.bedw || Nat.min ph 4 < t.bedh, 0x03),
        (t.variants.any (fun v => t.holdmax * 4000 < v.maxgap * v.bmp), 0x04),
        (t.musts != [] && (!s.model.hasKeep || 2400000 < s.reserve c t), 0x06),
        (!(s.model.tileNos.any (fun n => (s.tile n).meets t)) || (t.keep && !s.model.hasKeep), 0x07)] ++
      winE.flatMap winBad ++ winsBad wins vwins ++ [(wins.any (fun q => q.shared && t.bars.any (fun b =>
        b.bar = q.bar && 512 < b.size w h)), 5)]
    some (t, codes)
/-- A timetable as the Loom reads and admits it for a context: the timetable, or the code of its refusal
(DEDUCED, log entry 35). -/
def State.admitTt (s : State) (c : Nat) (desc : BitVec 64) : Except Nat Timetable :=
  match s.readTt c desc with
  | none => .error 0x01
  | some (t, codes) => match lowestCode codes with
    | some k => .error k
    | none => .ok t

end Sys2Proof.Machine
end

