-- ==== Sys2Proof/Machine/Image.lean ====
section
/-! DEFINITION. The save area of a context: the bytes of a tile image (27 R444, R445), the save slots of a service stratum
(R442), and the live data that a service stratum holds (04 R82). -/
namespace Sys2Proof.Machine

/-! ### What contexts map -/

/-- Spans with the addresses of the own module in its own regions (07 R114). -/
def State.ownSpans (s : State) (l : List (Nat × Nat)) : List (Nat × Nat) := l.map (fun p => (s.ownPa p.1, p.2))
/-- The spans of the valid leaves of a page table from one of its tables on. -/
def State.leavesFrom (s : State) : (fuel lvl t : Nat) → List (Nat × Nat)
  | 0, _, _ => []
  | fuel + 1, lvl, t =>
    -- the first byte of a valid entry is odd
    (s.mem.filter (fun c => t ≤ c.1 && c.1 < t + tableSize lvl && (c.1 - t) % 8 = 0 && c.2.getLsbD 0)).flatMap (fun c =>
      let pte := BitVec.ofNat 64 (leNat (Memory.read s.mem c.1 8))
      if pteBad pte lvl then []
      else if pte.getLsbD 1 then [(pteAddr pte, 2 ^ pageBits lvl)]
      else s.leavesFrom fuel (lvl + 1) (pteAddr pte))
/-- The spans that a context maps: its valid range entries, and the leaves of its page table. -/
def State.mapped (s : State) (c : Nat) : List (Nat × Nat) :=
  let x := s.ctx c
  s.ownSpans ((x.ranges.filter (fun p => RangeE.v p.2)).flatMap (fun p => RangeE.spans p.2) ++
    (if x.ptroot = 0 then [] else s.leavesFrom 4 0 x.ptroot.toNat))
def State.hostMapped (s : State) : List (Nat × Nat) := s.ownSpans (s.hdm.map (·.2))

/-! ### The bytes of an image (27 R444, R445) -/

def Bar.word (b : Bar) : Nat :=
  b.err.toNat * 2 ^ 184 + b.flags.toNat * 2 ^ 176 + b.lerr.toNat * 2 ^ 168 + b.lflags.toNat * 2 ^ 160 +
  b.scope.toNat * 2 ^ 158 + b.bedw.toNat * 2 ^ 155 + b.bedh.toNat * 2 ^ 152 + b.phase.toNat * 2 ^ 151 +
  b.armed.toNat * 2 ^ 150 + b.lesub.toNat * 2 ^ 136 + b.esub.toNat * 2 ^ 128 + b.byteExp.toNat * 2 ^ 96 +
  b.byteCnt.toNat * 2 ^ 64 + b.arrExp.toNat * 2 ^ 48 + b.arrCnt.toNat * 2 ^ 32
/-- A loop entry in 32 bytes: START, END, COUNT, INDEX, and a stream entry's terms (R445; the places within the 32 bytes
are the model's, DESIGN CHOICE, log entry 13). -/
def LoopEnt.word (e : LoopEnt) : Nat :=
  e.start + e.fin * 2 ^ 32 + e.count.toNat * 2 ^ 64 + e.index.toNat * 2 ^ 96 +
  (match e.stream with
    | some (d, l, p, h) => (1 + d.code * 2 + l.toNat * 16 + p.toNat * 256 + h * 2 ^ 16) * 2 ^ 128
    | none => 0)
def waitCode : WaitSt → Nat
  | .none => 0
  | .align _ => 1
  | .barw _ _ _ => 2
  | .waita _ _ _ _ _ => 3
  | .hold _ _ _ => 0
def waitWord : WaitSt → Nat
  | .align a => a
  | .barw b p _ => b + 64 * p.toNat
  | .waita va _ _ _ _ => va.toNat
  | _ => 0
def winWord (w : Win) : Nat := w.shared.toNat * 2 ^ 124 + w.bar * 2 ^ 118 + w.size * 2 ^ 32 + w.base
/-- Instruction words as a number, the first word lowest. -/
def wordsNat : List Word32 → Nat
  | [] => 0
  | w :: r => w.toNat + 2 ^ 32 * wordsNat r
/-- The control block of an image, by offset (R445; the places within the MSEQ entry and the re-issue registers are the
model's, DESIGN CHOICE, log entry 13). -/
def controlBlock (t : Tile) : List Host.Cell :=
  let put (m : List Host.Cell) (a n x : Nat) : List Host.Cell := Memory.write m a (leBytes n x)
  let each (m : List Host.Cell) (k : Nat) (f : Nat → Nat × Nat × Nat) : List Host.Cell :=
    (List.range k).foldl (fun m i => put m (f i).1 (f i).2.1 (f i).2.2) m
  let r := t.regs
  let m := each [] 64 (fun i => (8 * i, 8, (sget 0 r.sc i).toNat))
  let m := each m 64 (fun i => (0x200 + 4 * i, 4, (sget normZero r.norm i).toNat))
  let m := put m 0x300 4 t.seq.pc
  let m := put m 0x304 4 (t.seq.skip.toNat * 2 ^ 16 + t.seq.rep * 256 + waitCode t.seq.wait)
  let m := put m 0x308 4 (r.preds.toNat / 2 * 2)
  let m := put m 0x30C 4 (r.rmode.toNat * 2 ^ 16 + r.pflags.toNat * 256 + r.flags.toNat)
  let m := put m 0x310 16 (r.rngKey0.toNat + r.rngKey1.toNat * 2 ^ 32 + r.rngCtr.toNat * 2 ^ 64)
  let m := put m 0x320 8 (waitWord t.seq.wait)
  let m := put m 0x328 4 r.accMode.toNat
  let m := put m 0x32C 4 (t.trap.tcause.toNat)
  let m := each m t.seq.loops.length (fun i =>
    (0x340 + 32 * i, 32, match t.seq.loops.reverse[i]? with | some e => e.word | none => 0))
  let m := each m 48 (fun i => (0x400 + 32 * i, 32, (t.bar i).word))
  let m := each m 4 (fun i => (0xA00 + 64 * i, 64, (sget unityLatch r.lat i).toNat))
  let m := each m 64 (fun i => (0xB00 + 8 * i, 8, (t.vault.bank i).toBits.toNat))
  let m := each m 4 (fun i => (0xD00 + 8 * i, 8, (sget 0 t.vault.vwb i).toNat))
  let m := each m 4 (fun i => (0xD20 + 8 * i, 8, (sget 0 t.vault.vwl i).toNat))
  let m := each m 16 (fun i => (0xD40 + 4 * i, 4, (sget 0 t.seq.walk i).toNat))
  let m := match t.mx.mseq with
    | some q => put m 0xD80 24 (wordsNat (encode (.mseq q.f)) + q.param.toNat * 2 ^ 64 + q.started * 2 ^ 128)
    | none => m
  let m := each m 32 (fun i => (0xDC0 + 8 * i, 8, (sget 0 t.seq.ftags i).toNat))
  let m := each m t.wins.length (fun i => (0xEC0 + 16 * i, 16, match t.wins[i]? with | some w => winWord w | none => 0))
  t.seq.reissue.foldl (fun m e => put m (0x1000 + 64 * (e.slot - 1)) 16 (wordsNat (encode e.op) + e.sc * 2 ^ 64)) m

/-- n bytes of a store of rows, from byte a of it. -/
def storeBytes {w : Nat} (dflt : BitVec w) (m : Store w) (a n : Nat) : List Byte :=
  (List.range n).map (fun i => (sget dflt m ((a + i) / (w / 8))).extractLsb' (8 * ((a + i) % (w / 8))) 8)
/-- Chunk j of the register image: vector file, accumulators, weight buffer, directions, control block (28 R468). -/
def regChunk (t : Tile) (j : Nat) : List Byte :=
  let a := 4096 * j
  if j < 48 then storeBytes 0 t.regs.vrow a 4096
  else if j < 80 then storeBytes 0 t.regs.acc (a - 4096 * 48) 4096
  else if j < 112 then storeBytes 0 t.regs.wb (a - 4096 * 80) 4096
  else if j < 116 then storeBytes 0 t.regs.dir (a - 4096 * 112) 4096
  else Memory.read (controlBlock t) (a - 4096 * 116) 4096

/-- The bytes of a store that are not 0, by offset: w / 8 bytes for each key, from an offset on. -/
def storeCells {w : Nat} (m : Store w) (base : Nat) : List Host.Cell :=
  m.flatMap (fun e => (List.range (w / 8)).filterMap (fun i =>
    let b := e.2.extractLsb' (8 * i) 8
    if b = 0 then none else some (base + w / 8 * e.1 + i, b)))
/-- A tile image: the offsets of its bytes that are not 0 (R444). -/
def Saved.cells (q : Saved) : List Host.Cell :=
  let r := q.tile.regs
  q.spad ++ storeCells r.vrow 0xC0000 ++ storeCells r.acc 0xF0000 ++ storeCells r.wb 0x110000 ++
  storeCells q.tile.seq.istore 0x130000 ++ storeCells r.dir 0x150000 ++
  storeCells (q.tile.tags.map (fun e => (e.1, e.2.setWidth 16))) 0x154000 ++
  (controlBlock q.tile).map (fun c => (0x15A000 + c.1, c.2))

/-! ### Save slots (R442) -/

/-- Bytes of a save slot, and of an image. -/
def slotSize : Nat := 0x160000
def imageSize : Nat := 0x15C000
/-- The stratum of a tile that holds its save slots: the lowest that its marking names (DESIGN CHOICE, log entry 39). -/
def Tile.slotStratum (t : Tile) : Option Nat := (List.range 4).find? (fun st => t.vault.svcMark.getLsbD st)
/-- The physical address of slot i of a tile, counted down from the end of the stratum (DESIGN CHOICE, log entry 39). -/
def slotPa (n st i : Nat) : Nat := n * 2 ^ 29 + st * 2 ^ 27 + 2 ^ 27 - (i + 1) * slotSize
/-- A context has a save area in use. -/
def State.ctxBusy (s : State) (c : Nat) : Bool := s.plots.any (fun p => p.2.unfinished && p.2.ctx = c)
/-- What contexts have in service strata and elsewhere: what they map, and their save areas' headers (04 R82, 27 R442). -/
def State.liveSpans (s : State) : List (Nat × Nat) :=
  s.ctxs.flatMap (fun c => s.mapped c.1 ++ (if s.ctxBusy c.1 then [(s.headerPa c.1, 0x80)] else []))
/-- The slots of a tile that are assigned to timetables: strata and numbers. -/
def State.slotsUsed (s : State) (n : Nat) : List (Nat × Nat) :=
  s.plots.flatMap (fun p => if p.2.unfinished then (p.2.slots.filter (fun x => x.1 = n)).map (·.2) else [])
/-- The spans of the slots that are assigned to timetables (04 R82). -/
def State.slotSpans (s : State) : List (Nat × Nat) :=
  s.plots.flatMap (fun p => if p.2.unfinished then p.2.slots.map (fun x => (slotPa x.1 x.2.1 x.2.2, slotSize)) else [])
/-- The slot that the policy core assigns to a context on a tile: the first that is free and meets neither live data nor the
place of the context's header there, by stratum and number; none where the tile has no service stratum or no free slot
(DESIGN CHOICE, log entry 39). -/
def State.freeSlot (s : State) (live : List (Nat × Nat)) (c n : Nat) : Option (Nat × Nat) :=
  match (s.tile n).slotStratum with
  | none => none
  | some st =>
    let used := s.slotsUsed n
    let live := (n * 2 ^ 29 + st * 2 ^ 27 + (s.ctx c).savePa % 2 ^ 27, 0x80) :: live
    ((List.range 93).find? (fun i => !used.contains (st, i) && !anyMeet [(slotPa n st i, slotSize)] live)).map
      (fun i => (st, i))
/-- The address of a timetable's slot on a tile. -/
def Plot.slotOf (pl : Plot) (n : Nat) : Option Nat := (afind pl.slots n).map (fun x => slotPa n x.1 x.2)
/-- Bytes from a place on replaced by the listed ones, 0 elsewhere. -/
def State.putBlock (s : State) (pa len : Nat) (cells : List Host.Cell) : State :=
  let out (x : Nat) : Bool := !(pa ≤ x && x < pa + len)
  { s with
    mem := cells.foldl (fun m c => Memory.set m (pa + c.1) c.2) (s.mem.filter (fun c => out c.1))
    errs := s.errs.filter out, soft := s.soft.filter out }
/-- The offset in an image of a word of the register files and stores, named as errors name it; none for ss0-ss7 and sb47,
which an image does not hold (R435, R444, R445). -/
def wordPlace (w : Nat × Nat) : Option Nat :=
  match w.1 with
  | 0xD1 => some (0xC0000 + 256 * w.2)
  | 0xD2 => some (0xF0000 + 256 * w.2)
  | 0xD3 => some (0x110000 + 64 * w.2)
  | 0xD4 =>
    if w.2 < 256 then some (0x15A000 + 8 * w.2) else if w.2 < 512 then some 0x15A308
    else if w.2 < 768 then some (0x150000 + 256 * (w.2 - 512))
    else if w.2 < 1024 then some (0x15A200 + 4 * (w.2 - 768)) else none
  | 0xD5 => some (0x130000 + 64 * w.2)
  | 0xD6 => if w.2 < 4 then some (0x15AA00 + 64 * w.2) else if w.2 < 52 then some (0x15A400 + 32 * (w.2 - 4)) else none
  | _ => none
/-- The columns of a slot at pa that hold words of an image: words of the scratchpad by offset, and of the files. -/
def markColumns (pa : Nat) (spad : List Nat) (words : List (Nat × Nat)) : List Nat :=
  ((spad.filter (· < spadSize) ++ words.filterMap wordPlace).map (fun o => (pa + o) / 64 * 64)).eraseDups
/-- The save engine writes a tile's image into the plot's slot on the tile; a word in error takes its check bits along, so
the column that holds it is in error (R441, R444). -/
def State.saveImage (s : State) (pl : Plot) (q : Saved) : State :=
  match pl.slotOf q.place with
  | some pa =>
    let s := s.putBlock pa imageSize q.cells
    ({ s with errs := s.errs ++ markColumns pa q.errs q.tile.bad, soft := s.soft ++ markColumns pa q.soft q.tile.soft } : State).charge
      pl.ctx 9
  | none => s
/-- The save engine writes the control block of tile n alone, as t has it (R440). -/
def State.saveControl (s : State) (pl : Plot) (n : Nat) (t : Tile) : State :=
  match pl.slotOf n with
  | some pa => (s.putBlock (pa + 0x15A000) 0x2000 (controlBlock t)).charge pl.ctx 9
  | none => s

/-! ### The restore engine (27 R442, R446) -/

/-- A store of w-bit words from its bytes that are not 0, by offset. -/
def cellsStore (w : Nat) (cells : List Host.Cell) : Store w :=
  cells.foldl (fun m c => let k := c.1 / (w / 8)
    sset 0 m k (sget 0 m k ||| BitVec.ofNat w (c.2.toNat * 2 ^ (8 * (c.1 % (w / 8)))))) []
/-- A barrier record from its 32 bytes (09 R169). -/
def Bar.ofWord (x : Nat) : Bar :=
  { Bar.reset with
    err := BitVec.ofNat 8 (x / 2 ^ 184), flags := BitVec.ofNat 8 (x / 2 ^ 176), lerr := BitVec.ofNat 8 (x / 2 ^ 168)
    lflags := BitVec.ofNat 8 (x / 2 ^ 160), scope := BitVec.ofNat 2 (x / 2 ^ 158), bedw := BitVec.ofNat 3 (x / 2 ^ 155)
    bedh := BitVec.ofNat 3 (x / 2 ^ 152), phase := x.testBit 151, armed := x.testBit 150, lesub := BitVec.ofNat 8 (x / 2 ^ 136)
    esub := BitVec.ofNat 8 (x / 2 ^ 128), byteExp := BitVec.ofNat 32 (x / 2 ^ 96), byteCnt := BitVec.ofNat 32 (x / 2 ^ 64)
    arrExp := BitVec.ofNat 16 (x / 2 ^ 48), arrCnt := BitVec.ofNat 16 (x / 2 ^ 32), seen := x.testBit 151 }
/-- An image as the slot at pa holds it now: the scratchpad, the files, the stores, the tags, and the fields of the control
block that the spec lays out. The wait, the loop stack, the running MSEQ, the re-issue registers and the windows, whose
places within their entries the model chose, come from the image as it was saved; a word in error is good again once
its column in the slot is (R444, R445; DESIGN CHOICE, log entry 39). -/
def Saved.fromSlot (q : Saved) (s : State) (pa : Nat) : Saved :=
  let cells := (s.mem.filter (fun c => pa ≤ c.1 && c.1 < pa + imageSize)).map (fun c => (c.1 - pa, c.2))
  let part (lo n : Nat) : List Host.Cell :=
    (cells.filter (fun c => lo ≤ c.1 && c.1 < lo + n)).map (fun c => (c.1 - lo, c.2))
  let le (a n : Nat) : Nat := leNat (Memory.read s.mem (pa + 0x15A000 + a) n)
  let each (w n : Nat) (dflt : BitVec w) (a : Nat) : Store w :=
    (List.range n).foldl (fun m i => sset dflt m i (BitVec.ofNat w (le (a + w / 8 * i) (w / 8)))) []
  let still (l : List Nat) (o : Nat) : Bool := spadSize ≤ o || l.contains ((pa + o) / 64 * 64)
  let stillW (l : List Nat) (w : Nat × Nat) : Bool := match wordPlace w with
    | some o => l.contains ((pa + o) / 64 * 64)
    | none => true
  let t := q.tile
  let f := le 0x30C 4
  let v := (List.range 64).foldl (fun (v : Vault) i =>
    let b := Bank.ofBits (BitVec.ofNat 64 (le (0xB00 + 8 * i) 8))
    if v.bank i = b then v else v.setBank i b) t.vault
  let bars := (List.range 48).foldl (fun l i =>
    let x := le (0x400 + 32 * i) 32
    if (t.bar i).word = x then l else aset l i (Bar.ofWord x)) t.bars
  { q with
    spad := part 0 spadSize, errs := q.errs.filter (still s.errs), soft := q.soft.filter (still s.soft)
    tile := { t with
      regs := { t.regs with
        vrow := cellsStore 2048 (part 0xC0000 0x30000), acc := cellsStore 2048 (part 0xF0000 0x20000)
        wb := cellsStore 512 (part 0x110000 0x20000), dir := cellsStore 2048 (part 0x150000 0x4000)
        sc := each 64 64 0 0, norm := each 32 64 normZero 0x200, lat := each 512 4 unityLatch 0xA00
        preds := BitVec.ofNat 16 (le 0x308 4 / 2 * 2 + 1), rmode := BitVec.ofNat 3 (f / 2 ^ 16)
        pflags := BitVec.ofNat 8 (f / 2 ^ 8), flags := BitVec.ofNat 8 f, accMode := BitVec.ofNat 8 (le 0x328 4)
        rngKey0 := BitVec.ofNat 32 (le 0x310 4), rngKey1 := BitVec.ofNat 32 (le 0x314 4)
        rngCtr := BitVec.ofNat 64 (le 0x318 8) }
      seq := { t.seq with
        pc := le 0x300 4 % 2 ^ 24, rep := le 0x305 1, skip := (le 0x306 1).testBit 0
        istore := cellsStore 32 (part 0x130000 0x20000), walk := each 32 16 0 0xD40, ftags := each 64 32 0 0xDC0 }
      tags := (cellsStore 16 (part 0x154000 0x6000)).map (fun e => (e.1, e.2.setWidth 11))
      vault := { v with vwb := each 64 4 0 0xD00, vwl := each 64 4 0 0xD20 }
      bars := bars
      bad := t.bad.filter (stillW s.errs), soft := t.soft.filter (stillW s.soft) } }
/-- The image that a resume restores: as its slot holds it, or, on a tile without one, as it was saved (R442, R446). -/
def State.restored (s : State) (pl : Plot) (q : Saved) : Saved :=
  match pl.slotOf q.place with
  | some pa => q.fromSlot s pa
  | none => q

end Sys2Proof.Machine
end

