-- ==== Sys2Proof/Machine/Plot.lean ====
section
/-! DEFINITION. Plots: patterns and budgets (28 R454-R462), placement and arming (23 R398-R403), pauses and stops at
holds (19 R356, 27 R441), forced stops (27 R449), resume (27 R446) and the freeing of tiles (02 R43). -/
namespace Sys2Proof.Machine

/-! ### Patterns (28 R454-R461) -/

/-- Pulses of every 16 that a band allows (R459). -/
def bandPulses (band : Nat) : Nat := match band with | 0 => 16 | 1 => 12 | 2 => 8 | _ => 4
/-- Bit i of the canonical mask of d pulses (R454). -/
def patBit (d i : Nat) : Bool := i * d / 16 < (i + 1) * d / 16
def Plot.clusters (pl : Plot) : List Nat := (pl.tileList.map clusterOf).eraseDups
/-- A timetable that holds tiles. -/
def Plot.live (pl : Plot) : Bool := pl.st = .armed || pl.st = .running || pl.st = .paused
/-- The pulses that granted leases give a cluster, if one does (R459) (DEDUCED, log entry 24). -/
def State.leased (s : State) (cl : Nat) : Option Nat :=
  (s.plots.filter (fun p => p.2.live && p.2.lease.state = 2 && p.2.clusters.contains cl)).foldl
    (fun m p => some (Nat.max (m.getD 0) p.2.lease.pulses)) none
/-- The module's power limit, at most 1,500 W once the supply is lost (R459, R471). -/
def State.powerCap (s : State) : Nat := if s.pfail.isSome then Nat.min 1500 s.powerLimit else s.powerLimit
/-- The largest allotment that keeps every average over 10 µs within the limit: a cluster's part of it, in proportion to
its pattern, of the 2,800 W that the module draws at most at full pattern (R459, R460; DESIGN CHOICE, log entry 64). -/
def State.allotMax (s : State) : Nat := Nat.max 1 (16 * s.powerCap / 2800)
/-- The ceiling of a cluster (R459). -/
def State.ceilingOf (s : State) (cl : Nat) : Nat :=
  let k := s.cluster cl
  Nat.max 1 (Nat.min (bandPulses k.band) (Nat.min ((s.leased cl).getD (Nat.min k.allot s.allotMax)) k.limit))
/-- A droop holds the die of a cluster (R461). -/
def State.drooped (s : State) (cl : Nat) : Bool := (afind s.droops (cl / 16)).isSome
/-- The pattern that a cluster is to run: its ceiling, or its floor during a droop (R459, R461). -/
def State.target (s : State) (cl : Nat) : Nat :=
  if s.drooped cl then Nat.max 1 (Nat.min (s.cluster cl).floor (s.ceilingOf cl)) else s.ceilingOf cl
/-- The pattern of a plot's most constrained cluster (R455). -/
def State.patOf (s : State) (pl : Plot) : Nat :=
  pl.clusters.foldl (fun m cl => Nat.min m (s.cluster cl).pat) 16
/-- The split factor of a code (R455). -/
def splitOf (c : BitVec 2) : Nat := 2 ^ c.toNat
/-- A pattern meets a variant's budget (R398). -/
def meetsBudget (v : Variant) (s d : Nat) : Bool := 16 * s ≤ v.bmp * d
/-- A plot is overrun now (R462). -/
def State.overrunNow (s : State) (pl : Plot) : Bool := !meetsBudget pl.var (splitOf pl.split) (s.patOf pl)
/-- A pattern or split change recorded for a plot: a cluster, its mask, the split code (29 R477). -/
def State.patPlot (s : State) (cl : Nat) (p : Plot) : State :=
  s.record 0x40 p.ctx 0 cl (pack 1 (fun i => if patBit (s.cluster cl).pat i then 1 else 0) 16 + p.split.toNat * 2 ^ 16)
/-- A pattern change recorded once for its cluster, and once for every plot that it affects (29 R477). -/
def State.patRecord (s : State) (cl : Nat) : State :=
  let s' := s.record 0x40 0 0 cl (pack 1 (fun i => if patBit (s.cluster cl).pat i then 1 else 0) 16)
  (s.plots.filter (fun p => p.2.live && p.2.clusters.contains cl)).foldl (fun s p => s.patPlot cl p.2) s'

/-- The plot's power grant (R460). -/
def State.grant (s : State) (c : Nat) : Nat :=
  let low (x m : Nat) : Nat := if x = 0 then m else Nat.min x m
  low (s.ctx c).power (low (match afind s.parts (s.partOf c) with | some p => p.power | none => 0) s.powerCap)

/-! ### Rows that move with an image (27 R447) -/

/-- Bytes moved from one place to another of the same size, with the errors that stand in them; a correctable one is
corrected as it is read (27 R451). -/
def State.moveBytes (s : State) (old new size : Nat) : State :=
  let inside (lo x : Nat) : Bool := lo ≤ x && x < lo + size
  let s := s.correctIn old size
  { s with
    mem := (s.mem.filter (fun p => inside old p.1)).foldl (fun m p => Memory.set m (new + (p.1 - old)) p.2)
      (s.mem.filter (fun p => !inside new p.1))
    errs := s.errs.filter (fun e => !inside new e) ++ (s.errs.filter (inside old)).map (fun e => new + (e - old))
    soft := s.soft.filter (fun e => !inside new e) }
/-- The rows of a scheduled stratum's window, bank by bank: first byte of the bank on tile 0, and bytes. -/
def Vault.windowSpans (v : Vault) : List (Nat × Nat) :=
  (List.range 4).flatMap (fun st =>
    if v.scheduled st && v.base st ≤ v.limit st then
      (List.range 16).map (fun bk => (vaultAddr 0 st bk (v.base st) 0, (v.limit st + 1 - v.base st) * 2 ^ 11))
    else [])
/-- The rows of an image's windows copied to the tile that it moves to (27 R447). -/
def State.migrateRows (s : State) (q : Saved) (n : Nat) : State :=
  if q.place = n then s
  else (Vault.windowSpans q.tile.vault).foldl (fun s p =>
    s.moveBytes (q.place * 2 ^ 29 + p.1) (n * 2 ^ 29 + p.1) p.2) s
/-- The rows of an image's windows are free on the tile that it would move to: no other pre-empted plot's image names
them there (27 R447). -/
def State.rowsFree (s : State) (q : Saved) (n : Nat) : Bool :=
  q.place = n || (s.plots.all (fun k => k.2.st != .preempted || k.2.saved.all (fun r =>
    r.2.place != n || r.2 == q || !((Vault.windowSpans r.2.tile.vault).any (fun a =>
      (Vault.windowSpans q.tile.vault).any (fun b => a.1 < b.1 + b.2 && b.1 < a.1 + a.2))))))

/-! ### Placement (23 R398, R401, 11 R197) -/

/-- A variant suits clusters (R398). -/
def State.suits (s : State) (c : Nat) (cls : List Nat) (split : Nat) (v : Variant) : Bool :=
  cls.all (fun cl => (s.cluster cl).band ≤ v.ceil) && v.power ≤ s.grant c &&
  meetsBudget v split (cls.foldl (fun m cl => Nat.min m (s.ceilingOf cl)) 16)
/-- The first suiting variant of a plot, by number. -/
def State.choose (s : State) (pl : Plot) : Option Nat :=
  (List.range pl.tt.variants.length).find? (fun i => match pl.tt.variants[i]? with
    | some v => s.suits pl.ctx pl.clusters (splitOf pl.split) v
    | none => false)
/-- The panels that a rank's saved image needs (11 R197). -/
def Plot.panelsAt (pl : Plot) (r : Nat) : Nat := match afind pl.saved r with | some q => q.tile.panels | none => 0
/-- Tile n is held by plot k, whose tile there still issues, or that is armed on it (R403). -/
def State.heldBy (s : State) (n : Nat) (k : Nat × Plot) : Bool :=
  ((s.tile n).plot == some k.1 && !(s.tile n).seq.ended) || (k.2.st = .armed && k.2.tileList.contains n)
/-- A rectangle that the plot's tiles can take once the plots of a list have gone: aligned, on the module, its tiles suited,
and held by no other plot; no cluster stopped or in retention; a save slot on every tile that has a service stratum (27
R442); of a plot that spans modules the part on this one, its links with their stream lanes (R197, R389, R403, 28 R471,
30 R490; log entry 7). -/
def State.rectFits (s : State) (pl : Plot) (x0 y0 : Nat) (gone : List Nat) : Bool :=
  let p := { pl with x0 := x0, y0 := y0 }
  pl.w != 0 && pl.h != 0 && x0 % pl.ownW = 0 && y0 % pl.ownH = 0 && x0 + pl.ownW ≤ s.model.width && y0 + pl.ownH ≤ 16 &&
  s.spanUp pl.w pl.h &&
  s.pfail.isNone &&
  (let marked := p.tileList.filter (fun n => (s.tile n).vault.svcMark != 0 && (afind pl.slots n).isNone)
   let live := if marked = [] then [] else s.liveSpans
   marked.all (fun n => (s.freeSlot live pl.ctx n).isSome)) &&
  p.own.all (fun r =>
    let n := p.tileAt (r % pl.w) (r / pl.w)
    (s.tile n).meets pl.tt && pl.panelsAt r ≤ (s.tile n).panels &&
    !(s.plots.any (fun k => s.heldBy n k && !gone.contains k.1)) &&
    (match afind pl.saved r with
      | some q => s.rowsFree q n
      | none => true)) &&
  p.clusters.all (fun cl => !(s.cluster cl).hot && !(s.cluster cl).retained)
/-- A rectangle that the plot's tiles can take now. -/
def State.rectFree (s : State) (pl : Plot) (x0 y0 : Nat) : Bool := s.rectFits pl x0 y0 []
/-- The rectangles of a plot's shape, in the order in which the model's Loom tries them (DESIGN CHOICE, log entry 3). -/
def State.rects (s : State) (pl : Plot) : List (Nat × Nat) :=
  if pl.w = 0 || pl.h = 0 then []
  else (List.range (16 / pl.ownH)).flatMap (fun j =>
    (List.range (s.model.width / pl.ownW)).map (fun i => (i * pl.ownW, j * pl.ownH)))
/-- The first rectangle on which a variant of a plot suits. -/
def State.findRect (s : State) (pl : Plot) : Option (Nat × Nat) :=
  (s.rects pl).find? (fun r => s.rectFree pl r.1 r.2 && (s.choose { pl with x0 := r.1, y0 := r.2 }).isSome)

/-- SCYC at the stop that a plot has taken: the sc of its hold, or the boundary of a forced stop (27 R443, R450). -/
def Plot.stopScyc (pl : Plot) : Nat :=
  match pl.taken with
  | some t => if pl.atHold then t.2.1 - 1 else t.2.1
  | none => pl.scyc

/-! ### The context descriptor (27 R443) -/

def State.writeDesc (s : State) (pl : Plot) (state cause scyc : Nat) : State :=
  let c := s.ctx pl.ctx
  let left := pl.lease.left s.mp c.energy
  let frozen := pl.lease.state = 1 || pl.lease.state = 2 || pl.lease.again
  s.memWrite (s.headerAt pl + 0x40) (leBytes 64 (c.ptroot.toNat * 2 ^ 448 + scyc * 2 ^ 400 + pl.var.tag.toNat * 2 ^ 368 +
    (if frozen then left.1 * 2 ^ 336 + left.2 * 2 ^ 316 + pl.lease.terms * 2 ^ 311 else 0) + cause * 2 ^ 288 +
    pl.w * pl.h * 2 ^ 272 + state * 2 ^ 268 + c.part.toNat * 2 ^ 265 + pl.ctx * 2 ^ 259))

/-! ### Arming (23 R402, 11 R200) -/

/-- What a tile keeps whatever runs on it: its stores, the policy core's settings, and its counts. -/
def Tile.bare (t : Tile) : Tile :=
  { Tile.reset with
    trap := { TrapRegs.reset with evec := t.trap.evec }
    seq := { Seq.reset with istore := t.seq.istore, ftags := t.seq.ftags, mstore := t.seq.mstore }
    vault := { Vault.reset with svcMark := t.vault.svcMark, refMp := t.vault.refMp }
    corrections := t.corrections, softLog := t.softLog, vbanks := t.vbanks
    withheld := t.withheld, bad := t.bad.filter (fun p => p.1 = 0xD5), soft := t.soft.filter (fun p => p.1 = 0xD5)
    bankQ := t.bankQ }
/-- A word of the supervisor's own: of ss0-ss7, or sb47; a saved image holds none (27 R435). -/
def supWord (w : Nat × Nat) : Bool := (w.1 = 0xD4 && 1024 ≤ w.2) || w == (0xD6, 52)

/-- A tile that leaves its plot: its registers and records stay as they are until the next arming (R402), its work is
over. -/
def Tile.freed (t : Tile) : Tile :=
  { t with
    plot := none, turn := false, polled := false, pend := [], dyn := [], fences := [], inbox := [], ports := [], dynUse := []
    landedAt := none
    trap := { t.trap with pending := [], stopAt := none }
    seq := { t.seq with ovls := [], esp := [], wait := .none, ctl := .none } }

/-- The window registers and bank records of a fresh arming (R392, R402). A window with SVCW on a stratum that the
marking does not name is armed as a scheduled one, open in all rows (DESIGN CHOICE, log entry 54). -/
def armVault (v : Vault) (ws : List VWin) (dsc : Nat) : Vault :=
  ws.foldl (fun v w =>
    let svc := w.svc && v.svcMark.getLsbD w.st
    let v := { v with
      vwb := sset 0 v.vwb w.st (BitVec.ofNat 64 (2 ^ 15 + svc.toNat * 2 ^ 14 + w.base % 4096))
      vwl := sset 0 v.vwl w.st (BitVec.ofNat 64 ((w.base + w.size + 4095) % 4096)) }
    if svc then v else v.setStratum w.st (fun b => { b with refdue := BitVec.ofNat 14 dsc })) v
/-- A barrier record of the barrier table (R395). -/
def BarEnt.arm (e : BarEnt) : Bar :=
  { Bar.reset with scope := e.scope, bedw := e.bedw, bedh := e.bedh, arrExp := e.arr, byteExp := e.bytes, armed := true }
/-- The frame that an image page is put into (R402). -/
def pickFrame (t : Tile) (image : BitVec 32) : Nat :=
  ((List.range 32).find? (fun f =>
    let w := sget 0 t.seq.ftags f
    !(w.getLsbD 63 && w.setWidth 32 == image))).getD 0
/-- A page read for a frame, where it can be read. -/
def State.loadPage (s : State) (pl : Plot) (page : Nat) : Option (List Byte) :=
  s.loomRead pl.ctx (pl.tt.codeVa + BitVec.ofNat 64 (4096 * page)) 4096
/-- The page that holds ENTRY made resident (R402). -/
def Tile.makeResident (t : Tile) (image : BitVec 32) (page : Nat) (b : Option (List Byte)) : Tile :=
  if (t.frameOf image page).isSome then t
  else
    let f := pickFrame t image
    match b with
    | some b => (t.heal ((List.range 64).map (fun i => (0xD5, 64 * f + i)))).mapSeq (fun q =>
        { q with istore := loadFrame q.istore f b, ftags := sset 0 q.ftags f (pageTag image page) })
    | none => t.mapSeq (fun q => { q with ftags := sset 0 q.ftags f 0 })
/-- The data sections of a timetable written to a scratchpad (R396); one that cannot be read is not copied. -/
def State.copyData (s : State) (pl : Plot) (n : Nat) : State :=
  pl.tt.datas.foldl (fun s d => match s.loomRead pl.ctx d.src d.size with
    | some b => (s.loomCharge pl.ctx d.src d.size).spadWrite n d.spad b
    | none => s) s

/-- A tile set for a fresh run of plot k at rank r (R200, R402). -/
def State.armFresh (s : State) (k : Nat) (pl : Plot) (r : Nat) : State :=
  let n := pl.tileAt (r % pl.w) (r / pl.w)
  let page := pl.tt.entry / 4096
  let b := s.loadPage pl page
  let off := pl.tt.offsets.getD r 0
  let t := (s.tile n).bare
  let t := { t with
    regs := { t.regs with rngKey0 := pl.tt.rngKey0, rngKey1 := pl.tt.rngKey1, rngCtr := pl.tt.rngCtr &&& ~~~ 3#64 }
    seq := { t.seq with pc := pl.tt.entry, templates := pl.tt.templates,
                        wait := if off = 0 then .none else .align off }
    vault := { (armVault t.vault pl.tt.vwins pl.var.dsc).freeze with frozen := false }
    wins := pl.tt.wins, bars := pl.tt.bars.foldl (fun l (e : BarEnt) => aset l e.bar e.arm) []
    plot := some k, lx := r % pl.w, ly := r / pl.w }
  let s := if (t.frameOf pl.tt.imageId page).isSome then s
    else s.loomCharge pl.ctx (pl.tt.codeVa + BitVec.ofNat 64 (4096 * page)) 4096
  (s.setTile n (t.makeResident pl.tt.imageId page b)).copyData pl n

/-- The scratchpad of a tile replaced. -/
def State.loadSpad (s : State) (n : Nat) (q : Saved) : State :=
  let lo := spadBase n
  let keep := s.mem.filter (fun c => !(lo ≤ c.1 && c.1 < lo + spadSize))
  { s with
    mem := q.spad.foldl (fun m c => Memory.set m (lo + c.1) c.2) keep
    errs := s.errs.filter (fun e => !(lo ≤ e && e < lo + 2 ^ 20)) ++ q.errs.map (fun e => lo + e)
    soft := s.soft.filter (fun e => !(lo ≤ e && e < lo + 2 ^ 20)) ++ q.soft.map (fun e => lo + e) }
/-- The rest of a saved MSEQ set going at sc u (17 R331); nothing else is under way in the engine then, every pending
write having landed (16 R321). -/
def Tile.resumeMseq (t : Tile) (u : Nat) : Tile :=
  let t := { t with mx := { Mx.reset with mseq := t.mx.mseq } }
  match t.mx.mseq with
  | none => t
  | some m =>
    let p := seqParam m.param
    let occ := seqOcc m.f
    let left := p.nstep + 1 - m.started
    -- one that ran to its end before the stop has nothing left
    if left = 0 then { t with mx := Mx.reset } else
    let fin := u + left * occ
    let mx := (List.range left).foldl (fun x i =>
      Mx.fly x (seqStep m.f p (m.started + i)).acc (u + i * occ + occ + 8)) ((t.mx.useHalf p.half fin))
    ({ t with mx := { mx with array := fin, mseqTo := fin + 8 } }).pushAs t.seqNo m.addr 9 u (.mseqStep m.started)
/-- A tile restored from its image at rank r (27 R446); the flags of PFLAGS are merged. -/
def State.armSaved (s : State) (k : Nat) (pl : Plot) (r : Nat) (q : Saved) : State :=
  let n := pl.tileAt (r % pl.w) (r / pl.w)
  let old := s.tile n
  let t := { q.tile with
    regs := { q.tile.regs with ss := old.regs.ss }
    trap := { TrapRegs.reset with
      evec := old.trap.evec, tcause := q.tile.trap.tcause, tpc := q.tile.trap.tpc, tval := q.tile.trap.tval
      tscyc := q.tile.trap.tscyc }
    bars := aset q.tile.bars 48 (old.bar 48)
    seq := { q.tile.seq with mstore := old.seq.mstore }
    vault := { q.tile.vault with svcMark := old.vault.svcMark, refMp := old.vault.refMp }
    corrections := old.corrections, softLog := old.softLog, vbanks := old.vbanks
    withheld := old.withheld, plot := some k, lx := r % pl.w, ly := r / pl.w, ports := [], bankQ := old.bankQ, dynUse := [], inbox := [], turn := pl.atHold
    bad := q.tile.bad.filter (fun w => !supWord w) ++ old.bad.filter supWord
    soft := q.tile.soft.filter (fun w => !supWord w) ++ old.soft.filter supWord
    polled := false, landedAt := none }
  let t := t.mapRegs (fun g => { g with flags := g.flags ||| g.pflags, pflags := 0 })
  let s := s.migrateRows q n
  let s := (s.loadSpad n q).setTile n (if pl.atHold then t else t.resumeMseq pl.scyc)
  let s := s.mapCtx pl.ctx (fun c => { c with pubs := c.pubs ++ q.pubs.map (fun p => { p with tile := n }) })
  q.copies.foldl (fun s c => s.addCopy (clusterOf n) { c with tile := some n, suspended := false }) s

/-- The ranks that an arming sets. -/
def Plot.ranks (pl : Plot) : List Nat :=
  if pl.resumes then pl.saved.map (·.1) else pl.own
/-- One rank armed, if its tile holds no earlier work (R403). -/
def State.armRank (s : State) (k : Nat) (pl : Plot) (r : Nat) : State :=
  let n := pl.tileAt (r % pl.w) (r / pl.w)
  if (s.tile n).plot.isSome then s
  else
    let s := if pl.resumes then
        match afind pl.saved r with
        | some q => s.armSaved k pl r q
        | none => s
      else s.armFresh k pl r
    -- requests of what ran there before are over; a plot stop that came before the arming was complete stands (30 R490)
    (s.forget (fun q => q.tile == some n)).mapTile n (fun t =>
      if t.plot == some k then { t with trap := { t.trap with stopAt := pl.psent } } else t)
/-- A slot of its save area for a plot's context on every tile that has a service stratum (27 R442). -/
def State.assignSlots (s : State) (k : Nat) (pl : Plot) : State :=
  let ns := pl.tileList.filter (fun n => (afind pl.slots n).isNone && (s.tile n).vault.svcMark != 0)
  let live := if ns = [] then [] else s.liveSpans
  let add (l : List (Nat × Nat × Nat)) (n : Nat) : List (Nat × Nat × Nat) := match s.freeSlot live pl.ctx n with
    | some i => aset l n i
    | none => l
  s.mapPlot k (fun p => { p with slots := ns.foldl add p.slots })
/-- The fault record follows the header of a context's save area from one place to another; the header of a context that
had no timetable in use is a fresh one (27 R442; DESIGN CHOICE, log entry 39). -/
def State.moveHeader (s : State) (c old : Nat) (busy : Bool) : State :=
  let new := s.headerPa c
  if new = old then s else s.memWrite new (if busy then Memory.read s.mem old 64 else List.replicate 64 0)
/-- Plot k armed on a rectangle with a variant (R402, 27 R446) (DEDUCED, log entry 36). -/
def State.arm (s : State) (k : Nat) (pl : Plot) (x0 y0 v : Nat) : State :=
  let pl := { pl with scyc := if pl.resumes then pl.stopScyc else 0 }
  let new := { pl with
    st := .armed, x0 := x0, y0 := y0, variant := v, armMp := s.mp
    freed := if pl.resumes then pl.freed else []
    vtags := if pl.resumes && v = pl.variant then pl.vtags
      else pl.vtags ++ (match pl.tt.variants[v]? with | some q => [q.tag] | none => [])
    lease := if pl.resumes then pl.lease else Lease.reset, psent := none }
  let busy := s.plots.any (fun p => (p.1 != k || pl.resumes) && p.2.unfinished && p.2.ctx = pl.ctx)
  let old := s.headerPa pl.ctx
  let s := (({ s with plots := aset s.plots k new } : State).assignSlots k new).moveHeader pl.ctx old busy
  let new := match afind s.plots k with | some p => p | none => new
  let s := new.ranks.foldl (fun s r => s.armRank k new r) s
  -- a frozen lease is asked for again, or is returned on migration (28 R465)
  let s := if pl.resumes && pl.lease.again then
      s.setLease k (fun l => if pl.x0 = x0 && pl.y0 = y0 then { l with state := 1, ask := l.terms, pulses := 0 }
        else { l with state := 3, reason := 9, again := false })
    else s
  (s.writeDesc new 1 0 new.scyc).record 0x30 new.ctx 0 new.tt.imageId.toNat new.var.tag.toNat

/-- A pre-empted timetable of a level waits to be placed (24 R416). -/
def State.preemptedAt (s : State) (level : Nat) : Bool := s.plots.any (fun k => k.2.st = .preempted && k.2.level = level)
/-- PLOT_ARMING: a timetable that is placing is armed on a free rectangle with the first suiting variant (R398, R402). -/
def State.plotArming (s : State) (k x0 y0 : Nat) : State :=
  match afind s.plots k with
  | some pl =>
    -- a pre-empted timetable is placed before any new launch of its level (24 R416)
    if pl.st = .placing && s.rectFree pl x0 y0 && !s.preemptedAt pl.level then
      match s.choose { pl with x0 := x0, y0 := y0 } with
      | some v => s.arm k pl x0 y0 v
      | none => s
    else s
  | none => s
/-- The hold-table index at which a tile holds. -/
def Tile.holdIdx (t : Tile) : Option Nat := match t.seq.wait with | .hold i _ _ => some i | _ => none
/-- The hold of a plot is a replan point, by the entry of its lowest-ranked tile there (23 R393, R398). -/
def Plot.replanAt (pl : Plot) (idx : Option Nat) : Bool :=
  match idx with
  | some i => (match pl.tt.holds[i]? with | some h => h.replan | none => false)
  | none => false
/-- The address at which a variant continues after replan point i, 0 for none. -/
def Plot.resumeAddr (pl : Plot) (v : Nat) (idx : Option Nat) : Nat :=
  match idx, pl.tt.variants[v]? with
  | some i, some q => (sget 0 q.resume i).toNat % 2 ^ 24
  | _, _ => 0
/-- A variant switch on a tile at replan point idx: the next bundle's address, and each REFDUE at most the new bound
(R398, 04 R92). -/
def Tile.switchTo (t : Tile) (pl : Plot) (v : Nat) (idx : Option Nat) : Tile :=
  match pl.tt.variants[v]? with
  | none => t
  | some q =>
    { t.mapSeq (fun s => { s with pc := pl.resumeAddr v idx }) with
      vault := { t.vault with banks := t.vault.banks.map (fun p =>
        if t.vault.scheduled (p.1 / 16) then
          (p.1, { p.2 with refdue := BitVec.ofNat 14 (Nat.min p.2.refdue.toNat q.dsc) })
        else p) } }
/-- The hold index of the lowest rank of a saved plot. -/
def Plot.savedIdx (pl : Plot) : Option Nat := pl.saved.head?.bind (fun q => q.2.tile.holdIdx)
/-- The variant that a resumed plot runs: as at a replan point where its hold is one, else the running one once it
suits (28 R462). -/
def State.resumeVariant (s : State) (pl : Plot) : Option Nat :=
  let idx := pl.savedIdx
  let stay := if s.suits pl.ctx pl.clusters (splitOf pl.split) pl.var then some pl.variant else none
  if pl.atHold && pl.replanAt idx then
    match s.choose pl with
    | some v => if v = pl.variant then some v else if pl.resumeAddr v idx != 0 then some v else stay
    | none => none
  else stay
/-- PLOT_RESUME: a pre-empted timetable is re-armed from its images (27 R446). -/
def State.plotResume (s : State) (k x0 y0 : Nat) : State :=
  match afind s.plots k with
  | some pl =>
    if pl.st = .preempted && s.rectFree pl x0 y0 then
      match s.resumeVariant { pl with x0 := x0, y0 := y0 } with
      | some v =>
        -- the images are those that the slots hold
        let pl : Plot := { pl with saved := pl.saved.map (fun q => (q.1, s.restored pl q.2)) }
        let pl := if v = pl.variant then pl
          else { pl with saved := pl.saved.map (fun q => (q.1, { q.2 with tile := q.2.tile.switchTo pl v pl.savedIdx })) }
        s.arm k { pl with resumes := true } x0 y0 v
      | none => s
    else s
  | none => s

end Sys2Proof.Machine
end

