-- ==== Sys2Proof/Machine/Manifest.lean ====
section
/-! DEFINITION. Measurements (30 R491), the manifest log (R493), and LINKSTAT and BOOTSTAT as bits (R485, R487). -/
namespace Sys2Proof.Machine

/-- LINKSTAT (R487). -/
def Link.word (l : Link) : Nat :=
  (if l.stream then 640 else 0) * 2 ^ 32 + l.peerMod.toNat * 2 ^ 24 + l.peerLink.toNat * 2 ^ 20 + l.stream.toNat * 2 ^ 16 +
  l.rate.toNat * 2 ^ 8 + l.state.toNat
/-- BOOTSTAT (R485). -/
def Boot.word (b : Boot) : Nat := b.fail.toNat * 2 ^ 16 + b.last.toNat * 2 ^ 8 + b.state.toNat

/-- The bytes of a digest, the most significant first. -/
def digestBytes {w : Nat} (d : BitVec w) : List Byte := (leBytes (w / 8) d.toNat).reverse
def sha (b : List Byte) : List Byte := digestBytes (Config.sha384 b)

/-- The words of the tiles' monitor stores, each by tile and index (R491). -/
def State.monitorBytes (s : State) : List Byte :=
  (List.range s.model.tiles).flatMap (fun n =>
    (s.tile n).seq.mstore.flatMap (fun w => leBytes 2 n ++ leBytes 4 w.1 ++ leBytes 4 w.2.toNat))
/-- The bytes that a measurement is taken over (R491): the firmware images, that of the tile monitor as the tiles' stores hold
it, the configuration, the boot journal, and the manifest log (DESIGN CHOICE, log entry 8 for the order of the bytes). -/
def State.measured (s : State) (i : Nat) : Option (List Byte) :=
  match i with
  | 1 | 2 | 3 => some (Config.firmware i)
  | 4 => some s.monitorBytes
  | 5 => some (leBytes 8 (s.special 0 0x040).toNat ++ leBytes 8 s.caps2.toNat ++
      (List.range s.model.tiles).flatMap (fun n => leBytes 2 ((s.tile n).vbanks.map (2 ^ ·)).sum) ++
      (List.range s.model.links).flatMap (fun n => leBytes 8 (s.link n).word))
  | 6 => some (s.boot.journal.flatMap (fun p => [BitVec.ofNat 8 p.1, BitVec.ofNat 8 p.2]))
  | 16 => some s.manifest.flatten
  | _ => none
/-- A measurement: the digest of its bytes. -/
def State.measure (s : State) (i : Nat) : Option (List Byte) := (s.measured i).map sha
/-- A response under both signatures, over the same transcript (R492). -/
def signed (transcript : List Byte) : List Byte :=
  transcript ++ digestBytes (Config.ed25519 transcript) ++ Config.mldsa65 transcript

/-- The manifest entry of a timetable that completes with a status (R493); its code pages are hashed as they are read. -/
def State.manifestEntry (s : State) (pl : Plot) (status : Nat) : List Byte :=
  let code := (s.loomRead pl.ctx pl.tt.codeVa (4096 * pl.tt.npage)).getD []
  let force := (List.range 5).flatMap (fun i => (s.measure (i + 1)).getD [])
  let n := pl.vtags.length - 1
  sha code ++ sha pl.tt.raw ++ sha force ++
  leBytes 4 pl.tt.imageId.toNat ++ leBytes 4 pl.ctx ++ leBytes 4 pl.q ++ leBytes 4 pl.seq ++
  leBytes 4 pl.tt.rngKey0.toNat ++ leBytes 4 pl.tt.rngKey1.toNat ++ leBytes 8 pl.tt.rngCtr.toNat ++
  leBytes 4 (status + (if 15 < n then 0xFF else n) * 2 ^ 8) ++
  (let tags := (if 15 < n then pl.vtags.take 15 else pl.vtags).flatMap (fun t => leBytes 4 t.toNat)
   tags ++ List.replicate (64 - tags.length) 0) ++ List.replicate 12 0
/-- STATUS of a timetable that is over (24 R414). -/
def Plot.status (pl : Plot) : Nat := if pl.st = .done then 0x01 else if pl.reset then 0x05 else 0x03
/-- The policy core appends a plot's entry to the log (DEDUCED, log entry 42). -/
def State.appendManifest (s : State) (k : Nat) : State :=
  match afind s.plots k with
  | some pl => { s with manifest := s.manifest ++ [s.manifestEntry pl pl.status] }
  | none => s
/-- SPDM_REQUEST (R491, R492): the measurement of an index, signed; an index that is not offered has none. -/
def State.spdmRequest (s : State) (i : Nat) : State :=
  match s.measure i with
  | some m => { s with answers := signed m :: s.answers }
  | none => { s with answers := [] :: s.answers }
/-- MANIFEST_READ: the entries from a number on, with index 16, signed. -/
def State.manifestRead (s : State) (first : Nat) : State :=
  { s with answers := signed ((s.manifest.drop first).flatten ++ (s.measure 16).getD []) :: s.answers }

end Sys2Proof.Machine
end

