-- ==== Sys2Proof/Machine/Stops.lean ====
section
/-! DEFINITION. How plots start, pause, stop and end: the start pulse (23 R402-R403), holds (19 R356, 28 R462), stops at
holds (27 R441), forced stops (R449-R450), page migration (07 R127), retention (R453), and tiles freed (02 R43, R440). -/
namespace Sys2Proof.Machine

/-! ### Page migration (07 R127) -/

/-- The address of the entry that a walk ends at, in the tables that a memory holds (07 R118). -/
def State.leafAddr (s : State) (m : List Host.Cell) (va : Nat) : (fuel lvl t : Nat) → Option (Nat × BitVec 64 × Nat)
  | 0, _, _ => none
  | fuel + 1, lvl, t =>
    let a := t + 8 * lvlIndex va lvl
    let pte := BitVec.ofNat 64 (leNat (Memory.read m a 8))
    if s.memErr a 8 || !pte.getLsbD 0 || pteBad pte lvl then none
    else if pte.getLsbD 1 then some (a, pte, lvl)
    else s.leafAddr m va fuel (lvl + 1) (pteAddr pte)
/-- The leaf that maps a page of a context, as translations have it (07 R129). -/
def State.leafOf (s : State) (c : Nat) (va : BitVec 64) : Option (Nat × BitVec 64 × Nat) :=
  let x := s.ctx c
  if x.ptActive = 0 then none else s.leafAddr x.ptMem va.toNat 4 0 x.ptActive.toNat
/-- Bytes of memory that a valid range entry of some context maps. -/
def State.rangeMapped (s : State) (pa len : Nat) : Bool :=
  s.ctxs.any (fun c => (c.2.ranges ++ c.2.active).any (fun e => RangeE.v e.2 && anyMeet [(pa, len)] (RangeE.spans e.2)))
/-- The 512 KiB leaf of region 0x0, not pinned, of a hot stack, in memory that no range maps, that a page address names. -/
def State.movable (s : State) (c : Nat) (va : BitVec 64) : Option (Nat × BitVec 64) :=
  if va.getLsbD 56 || (rangeOf (s.ctx c).active va).isSome then none
  else match s.leafOf c va with
    | some (a, pte, lvl) =>
      if lvl = 3 && pteAddr pte / 2 ^ 48 = 0 && !pte.getLsbD 6 && !s.rangeMapped (pteAddr pte) (2 ^ 19) &&
          2 ≤ (s.cluster (clusterOf (pteAddr pte / 2 ^ 29 % 512))).band
      then some (a, pte) else none
    | none => none
/-- PAGE_MIGRATION: the page is locked, if it may move to that place. -/
def State.pageMigration (s : State) (c : Nat) (va : BitVec 64) (newPa : Nat) : State :=
  match s.movable c va with
  | some (_, pte) =>
    let old := clusterOf (pteAddr pte / 2 ^ 29 % 512)
    let new := clusterOf (newPa / 2 ^ 29 % 512)
    -- the new place holds no live data, and no other page is on its way there
    let free := !anyMeet [(newPa, 2 ^ 19)] (s.liveSpans ++ s.slotSpans ++
      s.ctxs.filterMap (fun x => x.2.migration.map (fun m => (m.2, 2 ^ 19))))
    if (s.ctx c).migration.isNone && newPa / 2 ^ 48 = 0 && newPa % 2 ^ 19 = 0 && s.localPlace newPa == .here newPa &&
        (s.cluster new).band < (s.cluster old).band && free then
      s.mapCtx c (fun x => { x with migration := some (va, newPa) })
    else s
  | none => s
/-- A beat in flight that writes a page: its cluster, its copy and the beat. -/
def State.beatInto (s : State) (page : Nat) : Option (Nat × Copy × Beat) :=
  s.clusters.findSome? (fun k => k.2.copies.findSome? (fun c =>
    (c.beats.find? (fun b => b.pas.any (fun pa => pa / 2 ^ 19 == page / 2 ^ 19))).map (fun b => (k.1, c, b))))
/-- Writes that translated before the lock have completed to the old copy (07 R127). -/
def State.copyMay (s : State) (c : Nat) : Bool :=
  match (s.ctx c).migration with
  | some (va, _) => (match s.leafOf c va with
    | some (_, pte, _) => (s.beatInto (pteAddr pte)).isNone
    | none => true)
  | none => false

/-! ### The Loom's queues and their interrupts (24 R408, R419) -/

def State.queue (s : State) (q : Nat) : Queue := aget Queue.reset s.queues q
def State.mapQueue (s : State) (q : Nat) (f : Queue → Queue) : State := { s with queues := aset s.queues q (f (s.queue q)) }
/-- A field of a queue's descriptor (24 R408). -/
def Queue.fld (q : Queue) (lo n : Nat) : Nat := bitsOf q.desc.toNat lo n
/-- A message that covers every request of the queue. -/
def State.sendIrq (s : State) (q : Nat) : State :=
  let k := s.queue q
  { s.mapQueue q (fun k => { k with irqs := 0 }) with msix := k.fld 260 12 :: s.msix }
/-- One interrupt request; a message at once where it is urgent, else once the count threshold is reached. -/
def State.irq (s : State) (q : Nat) (urgent : Bool := false) : State :=
  let s := s.mapQueue q (fun k => { k with irqs := k.irqs + 1, irqMp := if k.irqs = 0 then s.mp else k.irqMp })
  let k := s.queue q
  if urgent || k.fld 272 8 ≤ k.irqs then s.sendIrq q else s
/-- The Loom's work that waited for a page is done, in its order (07 R127). -/
def State.lateWrites (s : State) (c : Nat) : State :=
  (s.ctx c).late.foldl (fun s l => match l with
    | .write va b => (s.vaWrite (loomAgent c true) va b .awrite).2
    | .irq q urgent => s.irq q urgent) (s.mapCtx c (fun x => { x with late := [] }))
/-- PAGE_MIGRATION_COPY_DONE: the page is copied, the leaf rewritten, cached translations of it dropped, and held
accesses may go on. -/
def State.migrationDone (s : State) (c : Nat) : State :=
  if !s.copyMay c then s
  else match (s.ctx c).migration with
  | none => s
  | some (va, new) =>
    let leaf := s.leafOf c va
    let s := s.mapCtx c (fun x => { x with migration := none })
    match leaf with
    | none => s.lateWrites c
    | some (a, pte, _) =>
      let b := leBytes 8 (pte.toNat - pteAddr pte + new)
      let s := (s.moveBytes (pteAddr pte) new (2 ^ 19)).memWrite a b
      ({ s with
        ctxs := s.ctxs.map (fun x => (x.1, { x.2 with ptMem := Memory.write x.2.ptMem a b }))
        tlb := s.tlb.filter (fun t => !(t.ctx == c && t.page == va.toNat / 2 ^ 19) && (match t.found with
          | .leaf p _ => pteAddr p != pteAddr pte
          | .fault _ => true)) } : State).lateWrites c
/-- A migration that a forced stop finds under way runs to its end: the beats that it waits for complete first. -/
def State.finishMigration (s : State) (c : Nat) : (fuel : Nat) → State
  | 0 => s
  | fuel + 1 =>
    match (s.ctx c).migration with
    | none => s
    | some (va, _) =>
      match (s.leafOf c va).bind (fun l => s.beatInto (pteAddr l.2.1)) with
      | some (cl, q, b) => (match s.beatDone cl q b true with
        | some s' => s'.finishMigration c fuel
        | none => s.migrationDone c)
      | none => s.migrationDone c

/-! ### The codes of stops (27 R432, R433) -/

def StopKind.code : StopKind → BitVec 8
  | .preempt => 0x17
  | .pfail => 0x18
  | .stretch => 0x19
  | .therm => 0x1A
/-- The order in which stops are chosen (04 R95, 28 R462). -/
def StopKind.rank : StopKind → Nat
  | .pfail => 0
  | .stretch => 1
  | .therm => 2
  | .preempt => 3
def stopVal (sub st bk : Nat) (forced : Bool) (idx : Nat) : BitVec 64 :=
  BitVec.ofNat 64 (sub * 2 ^ 24 + st * 2 ^ 22 + bk * 2 ^ 18 + forced.toNat * 2 ^ 17 + idx % 64)
/-- The stop chosen among several. -/
def bestStop : List Stop → Option Stop
  | [] => none
  | p :: r => match bestStop r with
    | none => some p
    | some q => if q.kind.rank < p.kind.rank then some q else some p

/-! ### The trap that ends a plot (27 R440) -/

/-- Class, sc and rank of a trap: a trap of the program or its monitor, then a stop, then PSTOP. -/
def endKey (e : BitVec 8 × Nat × Nat × Nat) : Nat :=
  let c := if e.1 = 0x16 then 2 else if 0x17 ≤ e.1.toNat && e.1.toNat ≤ 0x1B then 1 else 0
  c * 2 ^ 80 + e.2.1 * 2 ^ 16 + e.2.2.1
def mergeEnd (a : Option (BitVec 8 × Nat × Nat × Nat)) (b : BitVec 8 × Nat × Nat × Nat) :
    Option (BitVec 8 × Nat × Nat × Nat) :=
  match a with
  | none => some b
  | some a => if endKey b < endKey a then some b else some a
/-! ### Images (27 R444) -/

/-- The image of tile n with its copies and publishes (DESIGN CHOICE, log entry 39). -/
def State.imageAt (s : State) (n : Nat) (t : Tile) : Saved :=
  let lo := spadBase n
  { tile := t
    place := n
    spad := (s.mem.filter (fun c => lo ≤ c.1 && c.1 < lo + spadSize)).map (fun c => (c.1 - lo, c.2))
    errs := (s.errs.filter (fun e => lo ≤ e && e < lo + 2 ^ 20)).map (fun e => e - lo)
    soft := (s.soft.filter (fun e => lo ≤ e && e < lo + 2 ^ 20)).map (fun e => e - lo)
    copies := s.copiesOf n
    pubs := (s.ctx (s.ctxOf n)).pubs.filter (fun p => p.tile == n) }
/-- The trap registers that a stop leaves in a tile, kept with its image (R445; DEDUCED, log entry 14). -/
def State.savedTrap (s : State) (q : Saved) : Saved := { q with tile := { q.tile with trap := (s.tile q.place).trap } }
/-- A tile's copies and publishes taken away. -/
def State.dropWork (s : State) (n : Nat) : State :=
  (s.mapCluster (clusterOf n) (fun k => { k with copies := k.copies.filter (fun c => c.tile != some n) })).mapCtx
    (s.ctxOf n) (fun c => { c with pubs := c.pubs.filter (fun p => p.tile != n) })

/-! ### The refresh guard (04 R98) -/

/-- The banks that the guard refreshes before a plot runs on from mp at_: those whose mp deadline would be nearer then than
their sc bound, and those of a scheduled stratum that have not been refreshed before. -/
def State.guardBanks (s : State) (pl : Plot) (at_ n : Nat) : List (Nat × Bank) :=
  let v := (s.tile n).vault
  let band := (s.cluster (clusterOf n)).band
  v.banks.filter (fun p => v.scheduled (p.1 / 16) && (match afind v.refMp p.1 with
    | none => true
    | some m => deadline band < at_ - m + p.2.refdue.toNat * pl.var.bmp))
/-- The guard's refreshes before a plot runs on from mp at_: a row that it reopens stands refreshed 48 mp before, the others
as the plot runs on (DESIGN CHOICE, log entry 69). -/
def State.guardResume (s : State) (pl : Plot) (at_ n : Nat) : State :=
  (s.guardBanks pl at_ n).foldl (fun s (p : Nat × Bank) =>
    let mp : Nat := if p.2.state = 1 then at_ - 48 else at_
    (s.mapTile n (fun t => { t with vault := { t.vault with refMp := aset t.vault.refMp p.1 mp } })).charge pl.ctx 2) s
/-- A row is recorded open, which the guard reopens after a pause (04 R98). -/
def Tile.rowOpen (t : Tile) : Bool := t.vault.banks.any (fun p => t.vault.scheduled (p.1 / 16) && p.2.state = 1)
/-- The guard's wait of 48 mp after the last reopen, before the first bundle (04 R98). -/
def State.guardWait (s : State) (ns : List Nat) : Nat := if ns.any (fun n => (s.tile n).rowOpen) then 48 else 0
/-- A paused plot runs on: the guard refreshes and reopens, and the plot's next pulse waits for it. -/
def State.resumeGuard (s : State) (k : Nat) (pl : Plot) : State :=
  let ns := s.tilesOf k pl
  let at_ := s.mp + s.guardWait ns
  ns.foldl (fun s n => s.guardResume pl at_ n) (s.mapPlot k (fun p => { p with guardMp := at_ }))
/-- Where a plot stands next: the sc after its hold, with its tiles' turns still to come and their records as the hold sc
left them (04 R101); the guard has prepared its vaults (04 R98). -/
def State.afterHold (s : State) (k : Nat) (pl : Plot) : State :=
  let s := (s.resumeGuard k pl).mapPlot k (fun p => { p with
    st := .running, scyc := p.scyc + 1, scMp := s.mp, pulMp := s.mp, got := 0, came := [], holdMp := s.mp, overdue := false
    scEnergy := (s.ctx p.ctx).energy })
  (s.tilesOf k pl).foldl (fun s n => ((s.mapTile n (fun t =>
    { t with turn := false, polled := false, shown := none, vault := t.vault.freeze })).countTile n 1 1).countTile n 3 1) s

/-- A stop taken by every tile of a plot paused at a hold of sc h: the images saved, then the monitor from sc h + 1
(R441). -/
def State.holdStop (s : State) (k : Nat) (pl : Plot) (st : Stop) : State :=
  let ns := s.tilesOf k pl
  let saved := ns.map (fun n => ((s.tile n).ly * pl.w + (s.tile n).lx, s.imageAt n (s.tile n)))
  let code := st.kind.code
  let s := (s.writeDesc pl 2 code.toNat pl.scyc).record 0x34 pl.ctx 0 st.sub pl.scyc
  let s := s.afterHold k pl
  let s := ns.foldl (fun s n =>
    let t := s.tile n
    if t.seq.ended then s
    else s.takeDue n ⟨code, stopVal st.sub st.st st.bk false (t.holdIdx.getD 0), false⟩) s
  let saved := saved.map (fun q => (q.1, s.savedTrap q.2))
  let s := saved.foldl (fun s q => s.saveImage pl q.2) s
  (s.mapPlot k (fun p => { p with
    saved := saved, stops := [], atHold := true, taken := some (code, pl.scyc + 1, false) })).freezeLease k

/-! ### Holds (19 R356, 28 R462) -/

/-- The tiles that take part in a pause: those that have not ended, members of beds among them (23 R407). -/
def State.pausers (s : State) (k : Nat) (pl : Plot) : List Nat :=
  (s.tilesOf k pl).filter (fun m => !(s.tile m).seq.ended)

/-- One tile's hold condition is tried; a read that faults counts, and is taken at the boundary of sc h + 1
(DEDUCED, log entry 34). -/
def State.holdTry (s : State) (n : Nat) : Bool × State :=
  match (s.tile n).seq.wait with
  | .hold _ .none _ => (true, s)
  | .hold _ (.bar b ph) _ => (((s.tile n).bar b).phase != ph, s)
  | .hold _ (.word va cmp w64 x) addr =>
    let r := s.waitRead n va cmp w64 x
    (match r.1 with
      | .done ok => (ok, r.2)
      | .fault f => (true, r.2.mapTile n (fun t => t.addBoundary 5 (waitTrap addr va (s.waitGran n va) f) (some addr)))
      | .ask => (false, r.2)
      | .wait => (false, s))
  | _ => (true, s)
/-- The conditions of a paused plot evaluated; one once seen to hold stays counted. -/
def State.pollHolds (s : State) (k : Nat) (pl : Plot) : State :=
  (s.pausers k pl).foldl (fun s n =>
    let r := (s.tile n).ly * pl.w + (s.tile n).lx
    match afind s.plots k with
    | some p =>
      if p.held.contains r then s
      else
        let q := s.holdTry n
        if q.1 then q.2.mapPlot k (fun p => { p with held := p.held ++ [r] }) else q.2
    | none => s) s
/-- Every condition has held, on the other modules of the plot too (log entry 7). -/
def State.allHeld (s : State) (k : Nat) (pl : Plot) : Bool :=
  (!pl.spans || Config.peerReady s.freeCtr) && (s.pausers k pl).all (fun n => pl.held.contains ((s.tile n).ly * pl.w + (s.tile n).lx))
/-- The stops that a plot meets at its hold: those asked for, and those of R462. -/
def State.stopsAt (s : State) (pl : Plot) : List Stop :=
  pl.stops ++ (if pl.overrun then [⟨.stretch, 0xF0, 0, 0⟩] else []) ++
  (if pl.clusters.any (fun cl => pl.var.ceil < (s.cluster cl).band) then [⟨.therm, 0xF2, 0, 0⟩] else [])
/-- The hold index of the lowest rank of a paused plot. -/
def State.pauseIdx (s : State) (k : Nat) (pl : Plot) : Option Nat :=
  (s.pausers k pl).head?.bind (fun n => (s.tile n).holdIdx)
/-- The replan of R398 at a hold: the variant switched to, if one is. -/
def State.replan (s : State) (k : Nat) (pl : Plot) : Option Nat :=
  let idx := s.pauseIdx k pl
  if pl.replanAt idx then
    match s.choose pl with
    | some v => if v != pl.variant && pl.resumeAddr v idx != 0 then some v else none
    | none => none
  else none
/-- A variant switched to, with its tag kept for the manifest (R398). -/
def State.switchVariant (s : State) (k : Nat) (pl : Plot) (v : Nat) : State :=
  let idx := s.pauseIdx k pl
  let s := (s.tilesOf k pl).foldl (fun s n => s.mapTile n (fun t => t.switchTo pl v idx)) s
  s.mapPlot k (fun p => { p with
    variant := v, overrun := false
    vtags := p.vtags ++ (match pl.tt.variants[v]? with | some q => [q.tag] | none => []) })
/-- Every tile that has not ended holds at this sc. -/
def State.allHold (s : State) (k : Nat) (pl : Plot) : Bool :=
  let ns := s.pausers k pl
  pl.st = .running && ns != [] && ns.all (fun n => (s.tile n).turn && (s.tile n).holding)
/-- A tile leaves its hold: a barrier's flags merge, and its fault is taken at the next boundary (R352). -/
def State.leaveHold (s : State) (n : Nat) : State :=
  match (s.tile n).seq.wait with
  | .hold _ c addr =>
    (match c with
      | .bar b _ => s.leavePhase n b addr
      | _ => s).mapTile n (fun t => t.mapSeq (fun q => { q with wait := .none }))
  | _ => s
/-- A cluster of a plot is in retention. -/
def State.retainedPlot (s : State) (pl : Plot) : Bool := pl.clusters.any (fun cl => (s.cluster cl).retained)
/-- Every tile leaves its hold, and the plot runs on (R356). -/
def State.leaveHolds (s : State) (k : Nat) (pl : Plot) : State :=
  ((s.pausers k pl).foldl State.leaveHold s).mapPlot k (fun p => { p with
    st := .running, holdMp := s.mp, overdue := false, overrun := false })
/-- A hold point is reached: the replan, then the stops that are due; a forced stop that is under way is taken as such
(27 R449). Where every condition holds at once there is no pause (04 R97). -/
def State.enterPause (s : State) (k : Nat) : State :=
  match afind s.plots k with
  | none => s
  | some pl =>
    if !s.allHold k pl then s
    else
      let s := s.mapPlot k (fun p => { p with st := .paused, pauseMp := s.mp, held := [] })
      if pl.forced.isSome then s
      else
        let s := match s.replan k pl with
          | some v => s.switchVariant k pl v
          | none => s
        match afind s.plots k with
        | none => s
        | some pl =>
          match bestStop (s.stopsAt pl) with
          | some st => s.holdStop k pl st
          | none =>
            let s := s.pollHolds k pl
            match afind s.plots k with
            | some pl => if s.allHeld k pl then s.leaveHolds k pl else s
            | none => s
/-- HOLD_RELEASE: every condition has held and no stop is due; every tile issues next at sc h + 1 (R356). -/
def State.holdRelease (s : State) (k : Nat) : State :=
  match afind s.plots k with
  | none => s
  | some pl =>
    if pl.st != .paused || s.retainedPlot pl then s
    else
      let s := s.pollHolds k pl
      match afind s.plots k with
      | none => s
      | some pl =>
        if !s.allHeld k pl then s
        else
          (s.leaveHolds k pl).resumeGuard k pl
/-- A tile's hold timeout has expired with its condition not met (R356). -/
def State.timedOut (s : State) (n : Nat) : Bool :=
  match s.plotOf n, (s.tile n).holdIdx with
  | some pl, some i =>
    let us := (holdEntry s n i).timeout
    pl.st = .paused && us != 0 && 4000 * us ≤ s.mp - pl.pauseMp &&
    !pl.held.contains ((s.tile n).ly * pl.w + (s.tile n).lx)
  | _, _ => false
/-- HOLDTO: the tile traps, and the plot stops by plot stop (R356). -/
def State.holdto (s : State) (n : Nat) : State :=
  match (s.tile n).plot, s.plotOf n with
  | some k, some pl =>
    if !s.timedOut n then s
    else
      let t := s.tile n
      let s := s.afterHold k pl
      let s := s.mapPlot k (fun p => { p with st := .paused })
      let s := s.takeDue n (trapAt 0x1C t.holdAddr 0xC0 (t.holdIdx.getD 0))
      s.mapPlot k (fun p => { p with st := .running })
  | _, _ => s

/-! ### Requests (23 R405) -/

/-- PLOT_OVERDUE. -/
def State.isOverdue (s : State) (pl : Plot) : Bool := pl.st = .running && pl.tt.holdmax * 4000 < s.mp - pl.holdMp
def State.plotOverdue (s : State) (k : Nat) : State :=
  match afind s.plots k with
  | some pl => if s.isOverdue pl then s.mapPlot k (fun p => { p with overdue := true }) else s
  | none => s
/-- The next bundle boundary of a plot: that of its sc, where none of its tiles has had its turn in it, else the next. -/
def State.nextBoundary (s : State) (k : Nat) (pl : Plot) : Nat :=
  if pl.st != .paused && (s.tilesOf k pl).all (fun n => !(s.tile n).turn) then pl.scyc else pl.scyc + 1
/-- A forced stop set for the next bundle boundary (R449); the first of the order of R95 stands. -/
def State.force (s : State) (k : Nat) (st : Stop) : State :=
  s.mapPlot k (fun p => { p with forced := match p.forced with
    | some (f, q) => some (f, if st.kind.rank < q.kind.rank then st else q)
    | none => some (s.nextBoundary k p, st) })
/-- A stop asked for: taken at once in a paused plot, as a forced stop in one that is overdue, else at the next hold. -/
def State.requestStop (s : State) (k : Nat) (st : Stop) : State :=
  match afind s.plots k with
  | none => s
  | some pl =>
    if pl.taken.isSome then s
    else match pl.st with
      | .paused => if s.retainedPlot pl then s.mapPlot k (fun p => { p with stops := p.stops ++ [st] })
        else s.holdStop k pl ((bestStop (pl.stops ++ [st])).getD st)
      | .running => if pl.overdue then s.force k st else s.mapPlot k (fun p => { p with stops := p.stops ++ [st] })
      | _ => s

/-! ### Forced stops (27 R449, R450) -/

/-- The drain of a forced stop: a running MSEQ stops at its checkpoint (16 R321, 17 R331). -/
def State.drainForced (s : State) (n : Nat) : (fuel : Nat) → State
  | 0 => s
  | fuel + 1 =>
    match (s.tile n).pend with
    | [] => s
    | p :: r =>
      match p.act with
      | .mseqStep i =>
        if i % 8 = 0 then
          let s := s.mapTile n (fun t => { t with pend := r })
          -- a checkpoint that has its record already has no second one (29 R477)
          let new : Bool := match (s.tile n).mx.mseq with | some m => m.cp < i | none => true
          (if new then s.checkpoint n p.addr i else s).drainForced n fuel
        else (s.performHead n true).drainForced n fuel
      | .mseqEnd k =>
        -- the image holds its operands and its count (17 R331)
        let m := (s.tile n).mx.mseq
        ((s.performHead n true).mapTile n (fun t =>
          { t with mx := { t.mx with mseq := m.map (fun m => { m with started := k, cp := k }) } })).drainForced n fuel
      | _ => (s.performHead n true).drainForced n fuel
/-- Beats in flight and dynamic accesses of a tile complete (R449). -/
def State.settleWork (s : State) (n : Nat) : (fuel : Nat) → State
  | 0 => s
  | fuel + 1 =>
    match (s.copiesOf n).findSome? (fun c => c.beats.findSome? (fun b => s.beatDone (clusterOf n) c b true)) with
    | some s' => s'.settleWork n fuel
    | none =>
      match (s.tile n).dyn with
      | [] => s
      | d :: _ =>
        if d.performed then (s.endDyn n d.id).settleWork n fuel
        else
          let r := s.tryDyn n d true
          match r.1 with
          | .done f => (r.2.dynServed n d f).settleWork n fuel
          | .fault f => (r.2.dynFail n d f).settleWork n fuel
          | _ => s
/-- The copies of the tiles of a plot are suspended (08 R150). -/
def State.suspendCopies (s : State) (ns : List Nat) : State :=
  ns.foldl (fun s n => s.mapCluster (clusterOf n) (fun k => { k with copies := k.copies.map (fun c =>
    if c.tile == some n then { c with suspended := true } else c) })) s
/-- A trap that a tile takes at a boundary before a stop of its plot counts there. -/
def State.ownStop (s : State) (n : Nat) : Option (Nat × Trap × Option Nat) :=
  match firstOf (s.boundary n) with
  | some p => if p.1 < 6 then some p else none
  | none => none
/-- A tile whose monitor runs. -/
def Tile.monitored (t : Tile) : Bool := t.trap.sup && !t.seq.ended
/-- The image of a tile that a forced stop takes once its plot's work has settled, with the stop taken by a tile that has not
ended. -/
def State.forcedImage (s : State) (k : Nat) (pl : Plot) (n : Nat) (tr : Trap) : State :=
  let t := s.tile n
  let img := s.imageAt n { t with vault := t.vault.revert }
  let s := (s.dropWork n).mapTile n (fun t => { t with mx := Mx.reset })
  let s := if t.seq.ended then s else s.takeDue n tr
  let img := s.savedTrap img
  (s.saveImage pl img).mapPlot k (fun p => { p with saved := p.saved ++ [(t.ly * pl.w + t.lx, img)] })
/-- A forced stop may be taken: at its boundary, or at the boundary after the hold of a paused plot. -/
def State.forcedMay (s : State) (k : Nat) (pl : Plot) : Bool :=
  match pl.forced with
  | none => false
  | some (f, _) =>
    (pl.st = .running && f ≤ pl.scyc && (s.tilesOf k pl).all (fun n => !(s.tile n).turn)) ||
    (pl.st = .paused && !s.retainedPlot pl)
/-- FORCED_STOP: every tile of the plot stops at the common boundary; a one-tile plot's image is resumable, a larger
plot's is torn. -/
def State.forcedStop (s : State) (k : Nat) : State :=
  match afind s.plots k with
  | none => s
  | some pl =>
    match pl.forced with
    | none => s
    | some (_, st) =>
      if !s.forcedMay k pl then s
      else
        let held := pl.st = .paused
        let s := if held then s.afterHold k pl else s
        let u := if held then pl.scyc + 1 else pl.scyc
        let code := st.kind.code
        let ns := s.tilesOf k pl
        let own := ns.filterMap (fun n => (s.ownStop n).map (fun p => (n, p)))
        let free (n : Nat) : Bool := (afind own n).isNone
        let mon := ns.filter (fun n => free n && !s.quiet n && (s.tile n).monitored)
        let full := ns.filter (fun n => free n && !s.quiet n && !(s.tile n).monitored)
        -- a trap of its own at the boundary, or a monitor that the stop halts (R436), ends the plot
        let early := own != [] || ns.any (fun n => (s.tile n).monitored)
        let trap (n : Nat) (s : State) : Trap := ⟨code, stopVal st.sub st.st st.bk true ((s.tile n).holdIdx.getD 0), false⟩
        let s := s.mapPlot k (fun p => { p with forced := none, stops := [] })
        let s := ((s.record 0x34 pl.ctx 0 st.sub u).finishMigration pl.ctx 65536).suspendCopies ns
        let s := own.foldl (fun s q => s.takeBoundary q.1 q.2) s
        let s := full.foldl (fun s n => (s.drainForced n 200000).mapTile n (fun t => { t with ports := [], inbox := [] })) s
        -- the work of every tile settles before an image is taken, since it counts into barriers of the plot (08 R150)
        let s := ns.foldl (fun s n => s.settleWork n 4096) s
        let s := mon.foldl (fun s n => s.takeDue n (trap n s)) s
        let s := full.foldl (fun s n => s.forcedImage k pl n (trap n s)) s
        let one := pl.w * pl.h = 1
        let s := if one && !early then s.freezeLease k else s.endLease k 0
        let s := s.mapPlot k (fun p => { p with
          taken := some (code, u, true), atHold := held
          ended := if one && !early then p.ended else mergeEnd p.ended (code, u, 0, 0) })
        match afind s.plots k with
        | some p => s.writeDesc p (if !one then 3 else if early then 4 else 2) code.toNat p.stopScyc
        | none => s

/-- The stop that another module's tiles of a plot send reaches the tiles on this one, which have taken no trap of their
own and have not been reached by another stop (R439, R440; log entry 7). -/
def State.peerStopped (s : State) (n : Nat) : State :=
  match (s.tile n).plot, s.plotOf n with
  | some k, some pl =>
    if pl.spans && pl.st = .running && (s.tile n).trap.stopAt.isNone then
      let v := Config.peerStop s.freeCtr
      (s.tilesOf k pl).foldl (fun s m => s.mapTile m (fun t =>
        if t.trap.sup || t.trap.halted || t.seq.ended || t.trap.stopAt.isSome then t
        else { t with trap := { t.trap with stopAt := some (pl.scyc, v) } })) (({ s with
          freeCtr := s.freeCtr + 1 } : State).endLease k 0)
    else s
  | _, _ => s
/-- PLOT_STOP_ARRIVAL: a plot stop reaches a tile, which takes PSTOP at its boundary (R439). -/
def State.stopArrival (s : State) (n : Nat) : State :=
  let s := s.peerStopped n
  let t := s.tile n
  if t.turn then s
  else match firstOf (s.boundary n) with
    | some p => if p.2.1.code = 0x16 then s.takeBoundary n p else s
    | none => s

/-! ### The end of a plot (27 R440) -/

/-- How a plot stands once its last tile is free: its state, the descriptor's STATE, and its cause. -/
def Plot.fate (pl : Plot) : PlotSt × Nat × Nat :=
  match pl.ended, pl.taken with
  | some (code, _), _ =>
    if code = 0x18 then (.stopped, 3, code.toNat)
    else (.faulted, if code = 0x1B then 5 else if 1 < pl.w * pl.h && 0x17 ≤ code.toNat && code.toNat ≤ 0x1A then 3 else 4,
      code.toNat)
  | none, some (code, _) => if code = 0x18 then (.stopped, 2, code.toNat) else (.preempted, 2, code.toNat)
  | none, none => (.done, 0, 0)
/-- The control blocks of a plot that has faulted are written for diagnosis: of every tile that it has left without an image
of a stop (R440). -/
def State.saveControls (s : State) (pl : Plot) : State :=
  (pl.freed.filter (fun q => (afind pl.saved q.1).isNone)).foldl (fun s q => s.saveControl pl q.2.place q.2.tile) s
/-- A plot whose last tile has been freed ends; the declaration of one that is lost in retention during a supply loss
stays for the restart record (28 R474) (DEDUCED, log entry 49). -/
def State.finishPlot (s : State) (k : Nat) : State :=
  match afind s.plots k with
  | none => s
  | some pl =>
    let f := pl.fate
    let gone := f.1 = .done || f.1 = .faulted
    let s := if gone then s.endLease k 0 else s
    let s := if f.1 = .faulted then s.saveControls pl else s
    let s := s.mapPlot k (fun p => { p with
      st := f.1, charged := p.charged && (!gone || (s.pfail.isSome && f.2.1 = 5)), stops := [], forced := none })
    let s := if gone then s.appendManifest k else s
    match afind s.plots k with
    | some p => s.writeDesc p f.2.1 f.2.2 p.stopScyc
    | none => s

/-! ### The start pulse (23 R402, R403) -/

/-- The ring index of a packet's header, by its number. -/
def State.seqOf (s : State) (q id : Nat) : Nat :=
  match (aget Queue.reset s.queues q).jobs.find? (fun j => j.id == id) with
  | some j => j.seq
  | none => 0
/-- The not-ready SLIP 0xA5 of a plot, taken by the tile of rank r (R403). -/
def State.notReady (s : State) (k : Nat) (pl : Plot) (r : Nat) : State :=
  let n := pl.tileAt (r % pl.w) (r / pl.w)
  let tpc := match afind pl.saved r with | some q => q.tile.seq.pc | none => pl.tt.entry
  let v := pstopVal 0x0B tpc (r % pl.w) (r / pl.w)
  let u := if pl.st = .paused then pl.scyc + 1 else pl.scyc
  let s := if pl.st = .paused then s.afterHold k pl else s
  let s := s.mapPlot k (fun p => { p with ended := mergeEnd p.ended (0x0B, u, r, tpc) })
  let s := (s.tilesOf k pl).foldl (fun s m => s.mapTile m (fun t =>
    if m = n || t.trap.stopAt.isSome then t
    else { t with trap := { t.trap with stopAt := some (if pl.st = .paused then u else u + 8, v) } })) s
  (s.endLease k 0).record 0x33 pl.ctx 0 0xA5 (s.seqOf pl.q pl.qseq)
/-- START_PULSE: the plot's sc begins at this master pulse. -/
def State.startPulse (s : State) (k : Nat) : State :=
  match afind s.plots k with
  | none => s
  | some pl =>
    if pl.st != .armed then s
    else
      let bad := pl.ranks.filter (fun r => (s.tile (pl.tileAt (r % pl.w) (r / pl.w))).plot != some k)
      let new := { pl with
        st := if pl.resumes && pl.atHold then .paused else .running
        scMp := s.mp, pulMp := s.mp, got := 0, came := [], holdMp := s.mp, pauseMp := s.mp, overrun := false, overdue := false
        held := [], scEnergy := (s.ctx pl.ctx).energy, taken := none, resumes := false, saved := [] }
      let s := { s with plots := aset s.plots k new }
      -- the guard has done its part before the pulse at which the plot runs (04 R98)
      let s := if new.st = .running then (s.tilesOf k new).foldl (fun s n => s.guardResume new s.mp n) s else s
      let s := if new.st = .running then s.countEvent (s.partOf new.ctx) 3 (s.tilesOf k new).length else s
      let s := if pl.resumes && !pl.atHold then
          (s.tilesOf k new).foldl (fun s n => s.mapTile n (fun t => { t with vault :=
            match t.seq.wait with
            | .barw _ _ _ | .waita _ _ _ _ _ => t.vault.freeze
            | _ => t.vault.age })) s
        else s
      match bad with
      | [] =>
        if new.st != .paused then s
        -- a plot stop that came while it was armed is taken at once (30 R490)
        else if (s.tilesOf k new).any (fun n => (s.tile n).trap.stopAt.isSome) then s.afterHold k new
        else s.pollHolds k new
      | r :: _ =>
        -- with no tile of its own the plot is over at once (R401, R403)
        let s := s.notReady k { new with saved := pl.saved } r
        if (s.tilesOf k new).isEmpty then s.finishPlot k else s

/-! ### Tiles freed and plots ended (02 R43, 27 R440) -/

/-- A tile that has ended has no work left in its queues; of one whose copies are suspended, those that have no beat in
flight and publishes are dropped (27 R440, 08 R150). -/
def State.freeable (s : State) (n : Nat) : Bool :=
  let t := s.tile n
  t.plot.isSome && t.seq.ended && t.pend = [] && t.dyn = [] && t.seq.ovls = [] && t.mx.mseq.isNone &&
  (if s.quiet n then (s.copiesOf n).all (fun c => c.beats = [])
    else s.copiesOf n = [] && !((s.ctx (s.ctxOf n)).pubs.any (fun p => p.tile == n)))
/-- TILE_FREED: the tile's trap counts for its plot, and the tile is free; one that an armed plot waits for is armed; the
last one ends the plot. -/
def State.tileFreed (s : State) (n : Nat) : State :=
  match (s.tile n).plot, s.plotOf n with
  | some k, some pl =>
    if !s.freeable n then s
    else
      let t := s.tile n
      let r := t.ly * pl.w + t.lx
      -- the program as it stood when its trap was taken, not its monitor (R440)
      let img := s.imageAt n (if t.trap.first.isSome then t.returnTrap else t)
      let img := if pl.charged then img else { img with spad := [], errs := [], soft := [], copies := [], pubs := [] }
      let s := s.dropWork n
      let s := (s.flushMarks n 3).mapPlot k (fun p => { p with freed := aset p.freed r img })
      let s := match t.trap.first with
        | some (c, sc, pc) =>
          s.mapPlot k (fun p => { p with
            ended := if !t.trap.halted && 0x17 ≤ c.toNat && c.toNat ≤ 0x1A then p.ended
              else mergeEnd p.ended (c, sc, r, pc) })
        | none => s
      let s := s.mapTile n Tile.freed
      let s := match s.plots.find? (fun p => p.2.st = .armed && p.2.tileList.contains n) with
        | some (j, p) =>
          (p.ranks.filter (fun r => p.tileAt (r % p.w) (r / p.w) == n)).foldl (fun (s : State) r => s.armRank j p r) s
        | none => s
      if (s.tilesOf k pl).isEmpty then s.finishPlot k else s
  | _, _ => s

/-! ### Retention (27 R453) -/

/-- The plots that occupy a cluster. -/
def State.plotsOn (s : State) (cl : Nat) : List (Nat × Plot) :=
  s.plots.filter (fun p => p.2.live && p.2.clusters.contains cl)
/-- RETENTION_ENTRY: the policy core places a cluster, all of whose plots are paused, into retention. -/
def State.retentionEntry (s : State) (cl : Nat) : State :=
  let ps := s.plotsOn cl
  if ps != [] && ps.all (fun p => p.2.st = .paused) then s.mapCluster cl (fun k => { k with retained := true }) else s
/-- RLOST in every tile of a paused plot (R453). -/
def State.rlost (s : State) (k : Nat) (pl : Plot) : State :=
  let ns := s.tilesOf k pl
  let s := s.afterHold k pl
  let pc := match ns with | n :: _ => (s.tile n).seq.pc | [] => 0
  let s := ns.foldl (fun s n =>
    let t := s.tile n
    if t.seq.ended then s
    else s.takeDue n ⟨0x1B, stopVal 0xF8 0 0 false (t.holdIdx.getD 0), false⟩) s
  (s.mapPlot k (fun p => { p with stops := [], ended := mergeEnd p.ended (0x1B, pl.scyc + 1, 0, pc) })).endLease k 0
/-- RETENTION_EXIT: the parity is checked; the plots may go on, or their state is absent. -/
def State.retentionExit (s : State) (cl : Nat) (ok : Bool) : State :=
  if !(s.cluster cl).retained then s
  else
    let s := s.mapCluster cl (fun k => { k with retained := false })
    let ps := (s.plotsOn cl).filter (fun p => p.2.st = .paused)
    if ok then
      ps.foldl (fun s p => match bestStop p.2.stops, s.retainedPlot p.2 with
        | some st, false => s.holdStop p.1 p.2 st
        | _, _ => s) s
    else
      let s := { s with pfail := s.pfail.map (fun f => { f with lost := f.lost ++ [cl] }) }
      ps.foldl (fun s p => s.rlost p.1 p.2) s

end Sys2Proof.Machine
end

