-- ==== Sys2Proof/Machine/Loom.lean ====
section
/-! DEFINITION. The Loom's queues and graphs (24_queues_and_graphs.md R408-R420): doorbells, packets as read and as
started, completion records, interrupts, graphs, and queue resets. -/
namespace Sys2Proof.Machine

/-! ### The descriptor (R408) -/

def Queue.ctx (q : Queue) : Nat := q.fld 242 6
def Queue.prio (q : Queue) : Nat := q.fld 248 3
/-- Words of the ring. -/
def Queue.size (q : Queue) : Nat := 2 ^ q.fld 251 5
/-- Ring words that are ready and not yet read. -/
def Queue.ready (q : Queue) : Nat := (q.tail + q.size - q.head) % q.size
/-- The policy core enables a descriptor (R408). -/
def goodQueue (d : Nat) : Bool :=
  bitsOf d 260 12 < 2048 &&
  bitsOf d 256 4 = 0 && bitsOf d 0 241 = 0 && bitsOf d 272 8 != 0 && bitsOf d 280 16 != 0 &&
  10 ≤ bitsOf d 251 5 && bitsOf d 251 5 ≤ 22
/-- QUEUE_ENABLE. -/
def State.queueEnable (s : State) (q : Nat) (d : BitVec 512) : State :=
  if 256 ≤ q || (s.queue q).enabled || (s.queue q).resetting || !d.getLsbD 241 || !goodQueue d.toNat then s
  else
    let n := { Queue.reset with desc := d, enabled := true, readyMp := s.mp, count := (s.queue q).count }
    { s with queues := aset s.queues q { n with level := n.prio } }
/-- DOORBELL (R484): ignored before the module is ready, with a reserved bit set, or on a disabled queue. -/
def State.doorbell (s : State) (q : Nat) (v : BitVec 32) : State :=
  if 256 ≤ q || !(s.queue q).enabled || v.toNat / 2 ^ 22 != 0 || !(s.boot.state = 1 || s.boot.state = 2) then s
  else s.mapQueue q (fun k => { k with tail := v.toNat % k.size })

/-! ### Writes of the Loom -/

/-- Work of the Loom behind the writes of a context that are held. -/
def State.later (s : State) (c : Nat) (l : Late) : State := s.mapCtx c (fun x => { x with late := x.late ++ [l] })
/-- Writes of the Loom for a context are held. -/
def State.isLate (s : State) (c : Nat) : Bool := (s.ctx c).late != []
/-- Bytes written by the Loom for a context, with release at system scope; an address that refuses them takes none. A write
to a page under migration is held until the page is unlocked, and every later write of the context with it, so that they
become visible in their order (07 R127, R412, R420). -/
def State.loomWrite (s : State) (c : Nat) (va : BitVec 64) (b : List Byte) : Option State :=
  if s.isLate c then some (s.later c (.write va b))
  else match s.vaWrite (loomAgent c true) va b .awrite with
  | (.done _, s') => some s'
  | (.fault _, _) => none
  | _ => some (s.later c (.write va b))
/-- A SIGNAL waits: its page is under migration, or earlier writes of the Loom are held. -/
def State.signalHeld (s : State) (c : Nat) (va : BitVec 64) : Bool := s.heldPage c va || s.isLate c
/-- A completion record of 32 bytes (R414) (DEDUCED, log entry 41). -/
def State.writeRecord (s : State) (c : Nat) (va : BitVec 64) (energy tag seq flags tcause code status : Nat) : State :=
  if va = 0 then s
  else
    let w := energy % 2 ^ 64 * 2 ^ 192 + s.ns % 2 ^ 64 * 2 ^ 128 + tag % 2 ^ 32 * 2 ^ 96 + seq * 2 ^ 64 + flags * 2 ^ 56 +
      tcause * 2 ^ 48 + code * 2 ^ 40 + status
    (s.loomWrite c va (leBytes 32 w)).getD s

/-! ### Interrupts (R419) -/

/-- An interrupt request of a queue, behind the record or signal that it is for. -/
def State.request (s : State) (q : Nat) (urgent : Bool) : State :=
  let c := (s.queue q).ctx
  if s.isLate c then s.later c (.irq q urgent) else s.irq q urgent
/-- IRQ_AGE_EXPIRY. -/
def State.irqDue (s : State) (q : Nat) : Bool :=
  let k := s.queue q
  k.irqs != 0 && 4000 * k.fld 280 16 ≤ s.mp - k.irqMp
def State.irqAge (s : State) (q : Nat) : State := if s.irqDue q then s.sendIrq q else s

/-! ### Completion and errors of packets (R411, R412, R415) -/

/-- A packet completes: its record, its selvage record, its interrupt request. -/
def State.complete (s : State) (q : Nat) (j : Job) (status code tcause flags tag : Nat) : State :=
  let k := s.queue q
  let energy := usedUj (s.ctx k.ctx).energy j.energy0
  let s := s.mapQueue q (fun k => { k with jobs := k.jobs.filter (fun x => x.id != j.id) })
  let s := s.writeRecord k.ctx j.recVa energy tag j.seq flags tcause code status
  let s := s.record 0x32 k.ctx 0 q (j.seq + status * 2 ^ 32)
  if j.irq then s.request q false else s
/-- A queue error: the queue stops, the error is recorded, and one message is sent at once (R415). -/
def State.queueError (s : State) (q : Nat) (recVa : BitVec 64) (seq code : Nat) : State :=
  let k := s.queue q
  let va := if recVa = 0 then BitVec.ofNat 64 (k.fld 320 64) else recVa
  let s := s.mapQueue q (fun k => { k with stopped := true })
  (s.writeRecord k.ctx va 0 0 seq 0 0 code 0x06).request q true

/-! ### Reading packets (R409-R413) -/

/-- Payload words of a type (R411). -/
def packetCount : Nat → Option Nat
  | 0x01 => some 4
  | 0x02 => some 4
  | 0x03 => some 5
  | 0x04 => some 6
  | 0x05 => some 3
  | 0x06 => some 0
  | 0x07 => some 6
  | 0x08 => some 0
  | 0x09 => some 1
  | _ => none
/-- A packet decoded from its header and payload words, or the queue error's code (R410, R411, R415). -/
def decodePacket (q seq : Nat) (hdr : Nat) (w : List Nat) : Except Nat Packet :=
  let p : Pkt := ⟨q, seq, bitsOf hdr 1 1 = 1, bitsOf hdr 0 1 = 1⟩
  let x (i : Nat) : Nat := w.getD i 0
  let va (i : Nat) : BitVec 64 := BitVec.ofNat 64 (x i + x (i + 1) * 2 ^ 32)
  if bitsOf hdr 2 6 != 0 then .error 0x10
  else match bitsOf hdr 24 8 with
  | 0x01 => .ok (.launch p (va 0) (va 2))
  | 0x02 => .ok (.copy p (va 0) (va 2))
  | 0x03 => if 4 ≤ x 4 then .error 0x10 else .ok (.signal p (va 0) (va 2) ((x 4).testBit 1) ((x 4).testBit 0))
  | 0x04 => if 8 ≤ x 4 then .error 0x10
    else .ok (.wait p (va 0) (va 2) ((x 4).testBit 2) (cmpOf (x 4 % 4)) (BitVec.ofNat 32 (x 5)))
  | 0x05 => if x 2 = 0 || 2 ^ 20 < x 2 then .error 0x10 else .ok (.callib p (va 0) (BitVec.ofNat 32 (x 2)))
  | 0x06 => .ok (.retib p)
  | 0x07 => if x 3 != 0 || x 2 % 2 ^ 16 = 0 || 4096 < x 2 % 2 ^ 16 then .error 0x10
    else .ok (.graph p (va 0) (BitVec.ofNat 16 (x 2 / 2 ^ 16)) (BitVec.ofNat 16 (x 2)) (va 4))
  | 0x08 => .ok (.fencek p)
  | 0x09 => .ok (.markk p (BitVec.ofNat 32 (x 0)))
  | _ => .error 0x10
/-- The completion record of a packet, 0 for none. -/
def packetRec : Packet → BitVec 64
  | .launch _ _ r | .copy _ _ r | .graph _ _ _ _ r => r
  | _ => 0
/-- The completion record that the payload of a packet of a type names, 0 for none. -/
def recOf (type : Nat) (w : List Nat) : BitVec 64 :=
  let i := if type = 1 || type = 2 then 2 else 4
  if type = 1 || type = 2 || type = 7 then BitVec.ofNat 64 (w.getD i 0 + w.getD (i + 1) 0 * 2 ^ 32) else 0

/-- A word of the ring or of an indirect buffer. -/
def State.queueWord (s : State) (k : Queue) (va : Nat) : Option Nat :=
  (s.loomRead k.ctx (BitVec.ofNat 64 va) 4).map leNat
def allSome {α : Type} : List (Option α) → Option (List α)
  | [] => some []
  | none :: _ => none
  | some x :: r => (allSome r).map (x :: ·)
/-- What reading a packet gives: nothing to read yet; an error's code, with the packet's record and the words it takes, 0
where they cannot be told; or the packet, its BARRIER bit and the words it took. -/
inductive PktRead where
  | none
  | error (code : Nat) (rec : BitVec 64) (words : Nat)
  | packet (i : Packet) (bar : Bool) (words : Nat)
def PktRead.found : PktRead → Bool
  | .none => false
  | _ => true
/-- A packet whose word i stands at `at i`, with n words to come (DEDUCED, log entry 37). -/
def State.readPacket (s : State) (k : Queue) (q seq n : Nat) (addr : Nat → Nat) (buffer : Bool) : PktRead :=
  if n = 0 then .none
  else match s.queueWord k (addr 0) with
    | none => .error 0x12 0 0
    | some hdr =>
      let type := bitsOf hdr 24 8
      let count := bitsOf hdr 8 16
      match packetCount type with
      | none => .error 0x10 0 0
      | some c =>
        if c != count then .error 0x10 0 0
        else if n < count + 1 then (if buffer then .error 0x19 0 0 else .none)
        else match allSome ((List.range count).map (fun i => s.queueWord k (addr (i + 1)))) with
          | none => .error 0x12 0 (count + 1)
          | some w => match decodePacket q seq hdr w with
            | .ok i => .packet i (bitsOf hdr 0 1 = 1) (count + 1)
            | .error e => .error e (recOf type w) (count + 1)
/-- Buffers that have been read to their last word return (R413). -/
def popBufs : List (BitVec 64 × Nat × Nat) → List (BitVec 64 × Nat × Nat)
  | [] => []
  | (b, i, n) :: r => if n ≤ i then popBufs r else (b, i, n) :: r
/-- The ring index that the next packet carries; one of a buffer carries that of the CALLIB that the ring holds. -/
def Queue.nextSeq (k : Queue) : Nat := if popBufs k.bufs = [] then k.head else (k.head + k.size - 4) % k.size
/-- The address of word j of the next packet. -/
def Queue.wordAt (k : Queue) (j : Nat) : Nat :=
  match popBufs k.bufs with
  | (b, i, _) :: _ => b.toNat + 4 * (i + j)
  | [] => k.fld 448 64 + 4 * ((k.head + j) % k.size)
/-- The next packet of a queue, from its innermost buffer or from its ring (R409, R413). -/
def State.readNext (s : State) (q : Nat) : PktRead :=
  let k := s.queue q
  match popBufs k.bufs with
  | (_, i, n) :: _ => s.readPacket k q k.nextSeq (n - i) k.wordAt true
  | [] => s.readPacket k q k.nextSeq k.ready k.wordAt false
/-- The traffic of reading n words of the next packet (28 R466). -/
def State.wordsCharge (s : State) (q n : Nat) : State :=
  let k := s.queue q
  (List.range n).foldl (fun s j => s.loomCharge k.ctx (BitVec.ofNat 64 (k.wordAt j)) 4) s
/-- Words of the next packet taken; of the ring, the index behind them is written as the head (R409), in one write of 4
bytes wherever HEADVA points (DESIGN CHOICE, log entry 72). -/
def State.takeWords (s : State) (q w : Nat) : State :=
  let k := s.queue q
  match popBufs k.bufs with
  | (b, i, n) :: r => s.mapQueue q (fun k => { k with bufs := (b, i + w, n) :: r })
  | [] =>
    let head := (k.head + w) % k.size
    ((s.loomWrite k.ctx (BitVec.ofNat 64 (k.fld 384 64)) (leBytes 4 head)).getD s).mapQueue q (fun k =>
      { k with head := head, bufs := [] })
/-- RING_READ: the queue's next packet is read, and the head index written (R409). -/
def State.canRead (s : State) (q : Nat) : Bool :=
  let k := s.queue q
  k.enabled && !k.stopped && k.next.isNone && (s.readNext q).found
def State.ringRead (s : State) (q : Nat) : State :=
  let k := s.queue q
  if !k.enabled || k.stopped || k.next.isSome then s
  else match s.readNext q with
    | .none => s
    | .error e rec w =>
      let s := s.wordsCharge q (Nat.max 1 w)
      -- a packet all of whose words have been read has its head index written (R409)
      let s := if e = 0x10 && w != 0 then s.takeWords q w else s.mapQueue q (fun k => { k with failed := w != 0 })
      s.queueError q rec k.nextSeq e
    | .packet p bar w => ((s.wordsCharge q w).takeWords q w).mapQueue q (fun k => { k with next := some p, nextBar := bar })

/-! ### Starting packets (R412, R416) -/

def isFencek : Packet → Bool
  | .fencek _ => true
  | _ => false
def isWait : JobKind → Bool
  | .wait _ _ _ _ _ => true
  | _ => false
/-- The queue's next packet could start (R412, R416, 28 R471); a SIGNAL waits for a page under migration (07 R127). -/
def State.startable (s : State) (q : Nat) : Bool :=
  let k := s.queue q
  k.enabled && !k.stopped && s.pfail.isNone && !k.jobs.any (fun j => isWait j.kind) &&
  (match k.next with
    | none => false
    | some i => (!(k.nextBar || isFencek i) || k.jobs = []) && !(match i with
      | .signal _ va _ _ _ => s.signalHeld k.ctx va
      | _ => false))
/-- The queue served next: the highest level, then in turn after the queue served last at that level (R416). -/
def State.nextQueue (s : State) : Option Nat :=
  let qs := (s.queues.map (·.1)).filter (fun q => s.startable q)
  let key (q : Nat) : Nat :=
    let l := (s.queue q).level
    (7 - l) * 256 + (q + 255 - aget 255 s.turnQ l) % 256
  (sortBy key qs).head?
/-- A packet row runs: its queue is served next, with this packet, which has then started (R416). -/
def State.starting (s : State) (p : Pkt) (i : Packet) (f : State → State) : State :=
  let k := s.queue p.q
  if !(k.next == some i) || s.nextQueue != some p.q then s
  else
    let s := { s.mapQueue p.q (fun k => { k with next := none, level := k.prio, readyMp := s.mp, count := k.count + 1 }) with
      turnQ := aset s.turnQ k.level p.q }
    f (s.record 0x31 k.ctx 0 p.q p.seq)
def State.newJob (s : State) (p : Pkt) (rec : BitVec 64) (kind : JobKind) : Job :=
  ⟨(s.queue p.q).count, p.seq, p.irq, rec, kind, s.mp, (s.ctx (s.queue p.q).ctx).energy⟩
def State.addJob (s : State) (q : Nat) (j : Job) : State := s.mapQueue q (fun k => { k with jobs := k.jobs ++ [j] })

/-- A timetable admitted for a context, to be placed (R400, R401). -/
def newPlot (tt : Timetable) (ctx q seq ring level : Nat) (node : Option Nat) (energy : BitVec 64) : Plot :=
  { tt := tt, st := .placing, ctx := ctx, q := q, qseq := seq, level := level, node := node, x0 := 0, y0 := 0,
    w := tt.w, h := tt.h, lx0 := 0, ly0 := 0, variant := 0, vtags := [], scyc := 0, scMp := 0, armMp := 0, holdMp := 0, overdue := false,
    pulMp := 0, got := 0, came := [], guardMp := 0, overrun := false, split := 0, pauseMp := 0, held := [], stops := [], forced := none,
    pfailAt := none, lease := Lease.reset, marks := [], charged := tt.musts != [], energy0 := energy, scEnergy := energy, psent := none, seq := ring, reset := false,
    taken := none, ended := none, slots := [], freed := [], saved := [], resumes := false, atHold := false }
/-- A timetable as read, where it can be read. -/
def noTt : Timetable :=
  { imageId := 0, npage := 0, codeVa := 0, entry := 0, w := 0, h := 0, bedw := 0, bedh := 0, esp := false, keep := false, svc := 0,
    nstrata := 0, panels := 0, holdmax := 0, rngKey0 := 0, rngKey1 := 0, rngCtr := 0, templates := [], offsets := [], wins := [],
    vwins := [], holds := [], walks := [], bars := [], datas := [], musts := [], variants := [], raw := [] }
/-- A timetable is refused: its traffic, and its entry in the manifest log, of what the Loom could read of it (30 R493;
DEDUCED, log entry 42). -/
def State.refuse (s : State) (q seq ring : Nat) (desc : BitVec 64) : State :=
  let c := (s.queue q).ctx
  let tt := match s.readTt c desc with | some r => r.1 | none => noTt
  let e := s.manifestEntry (newPlot tt c q seq ring 0 none 0) 0x02
  { s.ttCharge c desc with manifest := s.manifest ++ [e] }
/-- A timetable launched: its number, or the code of its refusal. -/
def State.launchPlot (s : State) (q seq ring level : Nat) (node : Option Nat) (desc : BitVec 64) :
    Except Nat (Nat × State) :=
  let c := (s.queue q).ctx
  match s.admitTt c desc with
  | .error e => .error e
  | .ok tt =>
    let k := s.plotNo
    let pl := newPlot tt c q seq ring level node (s.ctx c).energy
    .ok (k, { s.ttCharge c desc with
      plots := aset s.plots k { pl with lx0 := s.firstX tt.w, ly0 := s.firstY tt.h }, plotNo := k + 1 })

/-- LAUNCH. -/
def State.launch (s : State) (p : Pkt) (desc rec : BitVec 64) : State :=
  let level := (s.queue p.q).level
  s.starting p (.launch p desc rec) (fun s =>
    match s.launchPlot p.q (s.queue p.q).count p.seq level none desc with
    | .error e => (s.refuse p.q (s.queue p.q).count p.seq desc).complete p.q (s.newJob p rec (.launch 0)) 0x02 e 0 0 0
    | .ok (k, s) => s.addJob p.q (s.newJob p rec (.launch k)))

/-- A copy on the Loom's channel (R411), or the cause of its failure. -/
def State.loomCopy (s : State) (q seq : Nat) (node : Option Nat) (desc : BitVec 64) : Except Nat State :=
  let c := (s.queue q).ctx
  if desc.toNat % 64 != 0 then .error 0x12
  else
    match s.vaRead (loomAgent c true) desc 64 with
    | (.fault f, _) => .error f.1.toNat
    | (.done b, s) =>
      let d := BitVec.ofNat 512 (leNat b)
      match descCheck d 0 true with
      | some tr => .error tr.code.toNat
      | none => .ok (s.addCopy loomChannel
          { id := 0, ctx := c, tile := none, lx := 0, ly := 0, addr := 0, slot := 0, sc := 0, desc := d, bar := 0,
            rm := rmGet (descField d 362 3), age := 0, next := 0, beats := [], written := 0, cancelled := false,
            faulted := false, suspended := false, flags := fNone, q := q, qseq := seq, node := node, cause := 0 })
    | _ => .error 0x10
/-- COPY. -/
def State.copyPkt (s : State) (p : Pkt) (desc rec : BitVec 64) : State :=
  s.starting p (.copy p desc rec) (fun s =>
    match s.loomCopy p.q (s.queue p.q).count none desc with
    | .error e => (s.loomCharge (s.queue p.q).ctx desc 64).complete p.q (s.newJob p rec .copy) 0x03 0 e 0 0
    | .ok s => s.addJob p.q (s.newJob p rec .copy))

/-- The write of a SIGNAL, or the code of its error (R411). -/
def State.signalWrite (s : State) (c : Nat) (va val : BitVec 64) (w64 add : Bool) : Except Nat State :=
  let n := if w64 then 8 else 4
  if va.toNat % n != 0 then .error 0x19
  else
    let a := loomAgent c true
    let old := if !add then 0 else match s.reach a va .write with
      | .ok (pa :: _) => leNat (Memory.read s.mem pa n)
      | .peer pa => leNat (s.peerBytes s.peerNo.1 pa n)
      | _ => 0
    let s := if add then s.loomCharge c va n else s
    match s.loomWrite c va (leBytes n ((old + val.toNat) % 2 ^ (8 * n))) with
    | some s => .ok s
    | none => .error 0x12
/-- SIGNAL. -/
def State.signal (s : State) (p : Pkt) (va val : BitVec 64) (w64 add : Bool) : State :=
  s.starting p (.signal p va val w64 add) (fun s =>
    match s.signalWrite (s.queue p.q).ctx va val w64 add with
    | .error e => s.queueError p.q 0 p.seq e
    | .ok s => s.complete p.q (s.newJob p 0 .copy) 0x01 0 0 0 0)

/-- WAIT. -/
def State.waitPkt (s : State) (p : Pkt) (va val : BitVec 64) (w64 : Bool) (cmp : Cmp) (timeout : BitVec 32) : State :=
  s.starting p (.wait p va val w64 cmp timeout) (fun s =>
    if va.toNat % (if w64 then 8 else 4) != 0 then s.queueError p.q 0 p.seq 0x19
    else s.addJob p.q (s.newJob p 0 (.wait va val w64 cmp timeout.toNat)))
/-- A Loom read of a word and its compare (R411, R418): whether it holds, or the code of its error. -/
def State.loomCompare (s : State) (c : Nat) (va val : BitVec 64) (w64 : Bool) (cmp : Cmp) : Except Nat Bool :=
  let n := if w64 then 8 else 4
  if va.toNat % n != 0 then .error 0x19
  else match s.loomRead c va n with
    | some b => .ok (waitHolds cmp w64 (leNat b) val.toNat)
    | none => .error 0x12
/-- The WAIT that holds a queue. -/
def Queue.waiting (k : Queue) : Option Job := k.jobs.find? (fun j => isWait j.kind)
/-- WAIT_SATISFIED: the read meets the compare, or faults. -/
def State.waitReady (s : State) (q : Nat) : Bool :=
  match (s.queue q).waiting with
  | some j => (match j.kind with
    | .wait va val w64 cmp _ => (match s.loomCompare (s.queue q).ctx va val w64 cmp with | .ok b => b | .error _ => true)
    | _ => false)
  | none => false
def State.waitSatisfied (s : State) (q : Nat) : State :=
  match (s.queue q).waiting with
  | some j =>
    (match j.kind with
      | .wait va val w64 cmp _ =>
        (match s.loomCompare (s.queue q).ctx va val w64 cmp with
          | .ok true => (s.loomCharge (s.queue q).ctx va (if w64 then 8 else 4)).complete q j 0x01 0 0 0 0
          | .ok false => s
          | .error e =>
            (s.mapQueue q (fun k => { k with jobs := k.jobs.filter (· != j) })).queueError q 0 j.seq e)
      | _ => s)
  | none => s
/-- WAIT_TIMEOUT (R415). -/
def State.waitLate (s : State) (q : Nat) : Bool :=
  match (s.queue q).waiting with
  | some j => (match j.kind with
    | .wait _ _ _ _ us => us != 0 && 4000 * us ≤ s.mp - j.mp
    | _ => false)
  | none => false
def State.waitTimeout (s : State) (q : Nat) : State :=
  match (s.queue q).waiting with
  | some j => if s.waitLate q then
      (s.mapQueue q (fun k => { k with jobs := k.jobs.filter (· != j) })).queueError q 0 j.seq 0x18 else s
  | none => s

/-- CALLIB. -/
def State.callib (s : State) (p : Pkt) (va : BitVec 64) (len : BitVec 32) : State :=
  s.starting p (.callib p va len) (fun s =>
    let k := s.queue p.q
    if 4 ≤ k.bufs.length then s.queueError p.q 0 p.seq 0x11
    else if va.toNat % 64 != 0 then s.queueError p.q 0 p.seq 0x19
    else (s.mapQueue p.q (fun k => { k with bufs := (va, 0, len.toNat) :: k.bufs })).complete p.q (s.newJob p 0 .copy)
      0x01 0 0 0 0)
/-- RETIB. -/
def State.retib (s : State) (p : Pkt) : State :=
  s.starting p (.retib p) (fun s =>
    if (s.queue p.q).bufs = [] then s.queueError p.q 0 p.seq 0x13
    else (s.mapQueue p.q (fun k => { k with bufs := k.bufs.tail })).complete p.q (s.newJob p 0 .copy) 0x01 0 0 0 0)
/-- FENCEK. -/
def State.fencek (s : State) (p : Pkt) : State :=
  s.starting p (.fencek p) (fun s => s.complete p.q (s.newJob p 0 .copy) 0x01 0 0 0 0)
/-- MARKK. -/
def State.markk (s : State) (p : Pkt) (tag : BitVec 32) : State :=
  s.starting p (.markk p tag) (fun s =>
    (s.record 0x51 (s.queue p.q).ctx 0 tag.toNat 0).complete p.q (s.newJob p 0 .copy) 0x01 0 0 0 0)

/-! ### Graphs (R418) -/

def GNode.fld (g : GNode) (lo n : Nat) : Nat := bitsOf g.raw.toNat lo n
def GNode.type (g : GNode) : Nat := g.fld 0 8
def GNode.nsucc (g : GNode) : Nat := g.fld 8 4
def GNode.pred0 (g : GNode) : BitVec 16 := BitVec.ofNat 16 (g.fld 64 16)
def GNode.succ (g : GNode) (j : Nat) : Nat := g.fld (96 + 16 * j) 16
def GNode.va (g : GNode) : BitVec 64 := BitVec.ofNat 64 (g.fld 192 64)
def GNode.value (g : GNode) : BitVec 64 := BitVec.ofNat 64 (g.fld 256 64)
/-- The highest payload bit in use by type, and whether an unused one between is set. -/
def GNode.payloadBad (g : GNode) : Bool :=
  match g.type with
  | 1 => g.fld 296 216 != 0
  | 2 | 3 => g.fld 256 256 != 0
  | 4 => g.fld 323 189 != 0
  | 5 => g.fld 360 152 != 0
  | 6 => g.fld 192 320 != 0
  | _ => true
/-- A malformed node of a graph of n nodes (R418). -/
def GNode.bad (g : GNode) (n : Nat) : Bool :=
  g.payloadBad || 6 < g.nsucc || (List.range g.nsucc).any (fun j => n ≤ g.succ j) || g.fld 16 48 != 0 ||
  (g.type = 5 && (g.nsucc < g.fld 323 4 || (g.fld 327 1 = 1 &&
    (n ≤ g.fld 328 16 || n ≤ g.fld 344 16 || g.fld 344 16 < g.fld 328 16))))

def State.graph (s : State) (q seq : Nat) : Option GraphRun := (s.queue q).graphs.find? (fun g => g.id == seq)
def State.mapGraph (s : State) (q seq : Nat) (f : GraphRun → GraphRun) : State :=
  s.mapQueue q (fun k => { k with graphs := k.graphs.map (fun g => if g.id = seq then f g else g) })
def GraphRun.mapNode (g : GraphRun) (i : Nat) (f : GNode → GNode) : GraphRun :=
  { g with nodes := (g.nodes.zip (List.range g.nodes.length)).map (fun p => if p.2 = i then f p.1 else p.1) }
def GraphRun.node (g : GraphRun) (i : Nat) : Option GNode := g.nodes[i]?
/-- The graph stops: nodes that wait are cancelled. The first fault, refusal or error is kept, also one met after an END,
but for a queue error, which stands before a fault or a refusal (R415, R418). -/
def GraphRun.halt (g : GraphRun) (status code tcause : Nat) : GraphRun :=
  { g with stop := (match g.stop with
             | some (1, _, _) | none => some (status, code, tcause)
             | some k => some (if status = 0x06 && k.1 != 0x06 then (status, code, tcause) else k))
           nodes := g.nodes.map (fun n => if n.st = 0 then { n with st := 3 } else n) }
/-- An error of a graph: the queue stops, and the graph stops (R415, R418). -/
def State.graphError (s : State) (q seq code : Nat) : State :=
  (s.mapGraph q seq (fun g => g.halt 0x06 code 0)).mapQueue q (fun k => { k with stopped := true })

/-- A node starts (R418). -/
def State.startNode (s : State) (q seq i : Nat) : State :=
  if s.pfail.isSome then s
  else match s.graph q seq with
  | none => s
  | some g => match g.node i with
    | none => s
    | some n =>
      let c := (s.queue q).ctx
      let run (s : State) : State := s.mapGraph q seq (fun g => g.mapNode i (fun n => { n with st := 1 }))
      match n.type with
      | 1 | 2 =>
        (match s.launchPlot q seq (s.seqOf q seq) (s.queue q).prio (some i) n.va with
          | .error e => (s.refuse q seq (s.seqOf q seq) n.va).mapGraph q seq
              (fun g => (g.mapNode i (fun n => { n with st := 3 })).halt 0x02 e 0)
          | .ok (_, s) => run s)
      | 3 =>
        -- a copy that fails its check makes no copy, and is complete (R411)
        (match s.loomCopy q seq (some i) n.va with
          | .error _ => run (s.loomCharge c n.va 64)
          | .ok s => run s)
      | 4 =>
        (match s.signalWrite c n.va n.value (n.fld 321 1 = 1) (n.fld 320 1 = 1) with
          | .error e => s.graphError q seq e
          | .ok s =>
            let s := run s
            if n.fld 322 1 = 1 then s.request q false else s)
      | 5 => run s
      | _ => s.mapGraph q seq (fun g => (g.mapNode i (fun n => { n with st := 2 })).halt 0x01 0 0)
/-- Every node that may start does: waiting, with no predecessor left, and not timed (R418); a SIGNAL waits for a page under
migration (07 R127). -/
def State.startNodes (s : State) (q seq : Nat) : (fuel : Nat) → State
  | 0 => s
  | fuel + 1 =>
    match s.graph q seq with
    | none => s
    | some g =>
      if g.stop.isSome || s.pfail.isSome then s
      else match (List.range g.nodes.length).find? (fun i => match g.node i with
          | some n => n.st = 0 && n.pred = 0 && n.type != 1 && !(n.type = 4 && s.signalHeld (s.queue q).ctx n.va)
          | none => false) with
        | some i => (s.startNode q seq i).startNodes q seq fuel
        | none => s

/-- A graph all of whose running nodes have completed, once it has stopped, completes: its nodes are written back and its
record is written; the message of a graph's error follows its record (R415, R418, R419). -/
def State.endGraph (s : State) (q seq : Nat) : State :=
  match s.graph q seq with
  | none => s
  | some g =>
    match g.stop with
    | none => s
    | some (status, code, tcause) =>
      if g.nodes.any (fun n => n.st = 1) then s
      else
        let c := (s.queue q).ctx
        let s := (g.nodes.zip (List.range g.nodes.length)).foldl (fun s p =>
          let n := p.1
          let w := n.raw.toNat - n.fld 80 16 * 2 ^ 80 - n.fld 12 4 * 2 ^ 12 + n.pred.toNat * 2 ^ 80 + n.st.toNat * 2 ^ 12
          (s.loomWrite c (g.base + BitVec.ofNat 64 (64 * p.2)) (leBytes 64 w)).getD s) s
        let s := s.mapQueue q (fun k => { k with graphs := k.graphs.filter (fun x => x.id != seq) })
        match (s.queue q).jobs.find? (fun j => j.id = seq && j.kind = .graph) with
        | some j =>
          -- an error of a graph without a record stands in the reset record (R415)
          let j := if status = 0x06 && j.recVa = 0 then { j with recVa := BitVec.ofNat 64 ((s.queue q).fld 320 64) } else j
          let s := s.complete q j status code tcause 0 g.rearms
          if status = 0x06 then s.request q true else s
        | none => s

/-- Nodes of a graph read from memory, or the code of the error. -/
def State.readNodes (s : State) (c : Nat) (base : BitVec 64) (n : Nat) : Except Nat (List GNode) :=
  if base.toNat % 64 != 0 then .error 0x19
  else match allSome ((List.range n).map (fun i => s.loomRead c (base + BitVec.ofNat 64 (64 * i)) 64)) with
    | none => .error 0x12
    | some bs =>
      let ns := bs.map (fun b =>
        let g : GNode := ⟨BitVec.ofNat 512 (leNat b), 0, 0, false⟩
        { g with pred := g.pred0 })
      if ns.any (fun g => g.bad n) then .error 0x19 else .ok ns
/-- GRAPH. -/
def State.graphPkt (s : State) (p : Pkt) (base : BitVec 64) (cap count : BitVec 16) (rec : BitVec 64) : State :=
  s.starting p (.graph p base cap count rec) (fun s =>
    match s.readNodes (s.queue p.q).ctx base count.toNat with
    | .error e =>
      -- the graph completes on its error, before a node starts (R411, R418)
      ((s.loomCharge (s.queue p.q).ctx base (64 * count.toNat)).queueError p.q rec p.seq e).record 0x32
        (s.queue p.q).ctx 0 p.q (p.seq + 0x06 * 2 ^ 32)
    | .ok ns =>
      let s := s.loomCharge (s.queue p.q).ctx base (64 * count.toNat)
      let s := s.addJob p.q (s.newJob p rec .graph)
      let s := s.mapQueue p.q (fun k => { k with graphs := k.graphs ++
        [{ id := (s.queue p.q).count, base := base, cap := cap.toNat, nodes := ns, rearms := 0, mp := s.mp, stop := none }] })
      (s.startNodes p.q (s.queue p.q).count 4096).endGraph p.q (s.queue p.q).count)

/-- A successor loses one predecessor; below zero is an error (R418). -/
def State.release (s : State) (q seq : Nat) (js : List Nat) : State :=
  js.foldl (fun s j =>
    match (s.graph q seq).bind (fun g => g.node j) with
    | none => s
    | some n =>
      if n.pred = 0 then s.graphError q seq 0x16
      else s.mapGraph q seq (fun g => g.mapNode j (fun n => { n with pred := n.pred - 1 }))) s
/-- The re-arm of a COND (R418, R427), or the code of its error. -/
def GraphRun.rearm (g : GraphRun) (self lo hi : Nat) : Except Nat GraphRun :=
  let inRange (i : Nat) : Bool := lo ≤ i && i ≤ hi
  if g.cap < g.rearms + 1 then .error 0x14
  else if (List.range g.nodes.length).any (fun i => inRange i && i != self && (match g.node i with
      | some n => n.st = 1
      | none => false)) then .error 0x15
  else .ok { g with
    rearms := g.rearms + 1
    nodes := (g.nodes.zip (List.range g.nodes.length)).map (fun p =>
      if inRange p.2 then { p.1 with st := 0, pred := p.1.pred0, timed := false } else p.1) }

/-- The plot that a node launched. -/
def State.nodePlot (s : State) (q seq i : Nat) : Option (Nat × Plot) :=
  s.plots.reverse.find? (fun p => p.2.q = q && p.2.qseq = seq && p.2.node == some i)
/-- The running work of a node is over (R418): STATUS and cause of a failure. -/
def State.nodeOver (s : State) (q seq i : Nat) : Option (Option (Nat × Nat)) :=
  match (s.graph q seq).bind (fun g => g.node i) with
  | none => none
  | some n =>
    if n.st != 1 then none
    else match n.type with
    | 1 | 2 =>
      (match s.nodePlot q seq i with
        | some (_, pl) =>
          if pl.st = .done then some none
          else if pl.st = .faulted then
            some (some (if pl.reset then 0x05 else 0x03, match pl.ended with | some e => e.1.toNat | none => 0))
          else none
        | none => some none)
    | 3 =>
      (match (s.cluster loomChannel).copies.find? (fun c => c.q = q && c.qseq = seq && c.node == some i) with
        | some c => if c.over then some none else none
        | none => some none)
    | _ => some none
/-- A Loom copy that is over leaves the channel, with its record (29 R477). -/
def State.dropLoomCopy (s : State) (q seq : Nat) (node : Option Nat) : State :=
  match (s.cluster loomChannel).copies.find? (fun c => c.q = q && c.qseq = seq && c.node == node && c.over) with
  | some c => s.copyEnd loomChannel c
  | none => s

/-- GRAPH_NODE_COMPLETE: a running node whose work is over completes (R418). -/
def State.nodeComplete (s : State) (q i : Nat) : State :=
  match (s.queue q).graphs.find? (fun g => (s.nodeOver q g.id i).isSome) with
  | none => s
  | some g =>
    let seq := g.id
    match g.node i, s.nodeOver q seq i with
    | some n, some flt =>
      let c := (s.queue q).ctx
      let s := if n.type = 3 then s.dropLoomCopy q seq (some i) else s
      let s := s.mapGraph q seq (fun g => g.mapNode i (fun n => { n with st := 2 }))
      let succs (lo hi : Nat) : List Nat := (List.range (hi - lo)).map (fun j => n.succ (lo + j))
      let s := match flt with
        | some (status, cause) => s.mapGraph q seq (fun g => g.halt status 0 cause)
        | none =>
          if n.type != 5 then s.release q seq (succs 0 n.nsucc)
          else
            let r := s.loomCompare c n.va n.value (n.fld 322 1 = 1) (cmpOf (n.fld 320 2))
            let s := s.loomCharge c n.va (if n.fld 322 1 = 1 then 8 else 4)
            match r with
            | .error e => s.graphError q seq e
            | .ok false => s.release q seq (succs (n.fld 323 4) n.nsucc)
            | .ok true =>
              if n.fld 327 1 = 0 then s.release q seq (succs 0 (n.fld 323 4))
              else if g.stop.isSome then s
              else match (s.graph q seq).map (fun g => GraphRun.rearm g i (n.fld 328 16) (n.fld 344 16)) with
                | some (.ok g) => (s.mapGraph q seq (fun _ => g)).release q seq (succs 0 (n.fld 323 4))
                | some (.error e) => s.graphError q seq e
                | none => s
      (s.startNodes q seq 4096).endGraph q seq
    | _, _ => s
/-- A node that can complete now, if the queue has one. -/
def State.nodeDue (s : State) (q : Nat) : Option Nat :=
  (s.queue q).graphs.findSome? (fun g =>
    (List.range g.nodes.length).find? (fun i => (s.nodeOver q g.id i).isSome))
/-- TIMED_NODE_OFFSET: the node's offset has passed (R418). -/
def GraphRun.timedDue (g : GraphRun) (mp i : Nat) : Bool :=
  match g.node i with
  | some n => n.type = 1 && n.st = 0 && !n.timed && g.stop.isNone && 4 * n.fld 256 40 ≤ mp - g.mp
  | none => false
def State.timedNode (s : State) (q i : Nat) : State :=
  match (s.queue q).graphs.find? (fun g => g.timedDue s.mp i) with
  | none => s
  | some g =>
    match g.node i with
    | none => s
    | some n =>
      let s := s.mapGraph q g.id (fun g => g.mapNode i (fun n => { n with timed := true }))
      if n.pred = 0 then (s.startNode q g.id i).endGraph q g.id
      else ((s.record 0x33 (s.queue q).ctx 0 0x17 (s.seqOf q g.id)).graphError q g.id 0x17).endGraph q g.id
def State.timedDue (s : State) (q : Nat) : Option Nat :=
  (s.queue q).graphs.findSome? (fun g => (List.range g.nodes.length).find? (fun i => g.timedDue s.mp i))

/-! ### Work that ends (R411, R420) -/

/-- The packets of plots that have ended, and of Loom copies that are over, complete. -/
def State.settleJobs (s : State) : State :=
  s.queues.foldl (fun s q =>
    q.2.jobs.foldl (fun s j =>
      match j.kind with
      | .launch k =>
        (match afind s.plots k with
          | some pl =>
            if pl.st = .done then s.complete q.1 j 0x01 0 0 0 pl.var.tag.toNat
            else if pl.st = .faulted then
              s.complete q.1 j (if pl.reset then 0x05 else 0x03) 0
                (if pl.reset then 0 else match pl.ended with | some e => e.1.toNat | none => 0) 0 pl.var.tag.toNat
            else s
          | none => s)
      | .copy =>
        (match (s.cluster loomChannel).copies.find? (fun c => c.q = q.1 && c.qseq = j.id && c.node.isNone) with
          | some c =>
            if c.over || (c.suspended && c.beats = []) then
              let s := s.copyEnd loomChannel c
              s.complete q.1 j (if c.suspended then 0x05 else if c.faulted then 0x03 else 0x01) 0
                (if c.suspended then 0 else c.cause.toNat) c.flags.toNat 0
            else s
          | none => s)
      | _ => s) s) s
/-- A plot that holds no tiles ends by a queue reset (R420). -/
def State.killPlot (s : State) (k : Nat) : State :=
  (s.mapPlot k (fun p => { p with st := .faulted, charged := false, saved := [] })).appendManifest k
/-- A plot that a queue reset has stopped, and that would be pre-empted, ends (R420). -/
def State.endReset (s : State) : State :=
  s.plots.foldl (fun s p =>
    if p.2.reset && p.2.st = .preempted then s.killPlot p.1 else s) s
/-- The end of work that a step may have brought about. -/
def State.settleWorkDone (s : State) : State := s.endReset.settleJobs

/-! ### Order of service (R416, R417) -/

/-- SIGNAL nodes that a page under migration held start, as it has been unlocked (07 R127). -/
def State.startHeld (s : State) : State :=
  s.queues.foldl (fun s q => q.2.graphs.foldl (fun s g => (s.startNodes q.1 g.id 4096).endGraph q.1 g.id) s) s

/-- QUEUE_PATIENCE_EXPIRY. -/
def State.patienceDue (s : State) (q : Nat) : Bool :=
  let k := s.queue q
  let p := k.fld 296 24
  s.startable q && p != 0 && k.level < 7 && 4000 * p ≤ s.mp - k.readyMp
def State.patience (s : State) (q : Nat) : State :=
  if s.patienceDue q then s.mapQueue q (fun k => { k with level := k.level + 1, readyMp := s.mp }) else s
/-- The plots that hold tiles of a rectangle (R403). -/
def State.blockers (s : State) (pl : Plot) (r : Nat × Nat) : List Nat :=
  let p := { pl with x0 := r.1, y0 := r.2 }
  (s.plots.filter (fun k => p.tileList.any (fun n => s.heldBy n k))).map (·.1)
/-- The plots to pre-empt for a launch that cannot be placed: the fewest, of lower levels, the lowest level first, and
within a level the latest armed (R417). -/
def State.victims (s : State) (pl : Plot) : List Nat :=
  let lvl (k : Nat) : Nat := match afind s.plots k with | some p => p.level | none => 7
  let age (k : Nat) : Nat := match afind s.plots k with | some p => p.armMp | none => 0
  -- rectangles that would take the plot once their holders have gone
  let rs := (s.rects pl).filter (fun r => s.rectFits pl r.1 r.2 (s.blockers pl r) &&
    (s.choose { pl with x0 := r.1, y0 := r.2 }).isSome)
  let sets := (rs.map (fun r => s.blockers pl r)).filter (fun b => b != [] && b.all (fun k => lvl k < pl.level))
  -- the plots of a set in the order in which they are taken, compared one by one
  let one (k : Nat) : Nat := lvl k * 2 ^ 90 + (2 ^ 90 - 1 - age k)
  let key (b : List Nat) : Nat := (sortBy one b).foldl (fun m k => m * 2 ^ 100 + one k) b.length
  match sortBy key sets with
  | b :: _ => b
  | [] => []

/-! ### Queue reset (R420) -/

/-- The number of a packet's header in the ring. -/
def packetSeq : Packet → Nat
  | .launch p _ _ | .copy p _ _ | .signal p _ _ _ _ | .wait p _ _ _ _ _ | .callib p _ _ | .retib p | .graph p _ _ _ _
  | .fencek p | .markk p _ => p.seq
/-- STATUS 0x04 in a record. -/
def State.cancelRecord (s : State) (q : Nat) (rec : BitVec 64) (seq : Nat) : State :=
  s.writeRecord (s.queue q).ctx rec 0 0 seq 0 0 0 0x04
/-- Packets that have not started are cancelled, as far as ready words tell where they stand; those with a record receive
STATUS 0x04, but for the one (failed) whose error has stopped the queue, which has its record (R415, R420). -/
def State.cancelAll (s : State) (q : Nat) : (fuel : Nat) → (failed : Bool) → State
  | 0, _ => s
  | fuel + 1, failed =>
    match (s.queue q).next with
    | some i =>
      ((s.cancelRecord q (packetRec i) (packetSeq i)).mapQueue q (fun k => { k with next := none })).cancelAll q fuel failed
    | none =>
      let seq := (s.queue q).nextSeq
      match s.readNext q with
      | .none => s
      | .packet i _ w => ((s.cancelRecord q (packetRec i) seq).takeWords q w).cancelAll q fuel false
      | .error _ rec w =>
        if w = 0 then s
        else ((if failed then s else s.cancelRecord q rec seq).takeWords q w).cancelAll q fuel false
/-- Words that a queue may still hold. -/
def Queue.words (k : Queue) : Nat := k.bufs.foldl (fun m b => m + b.2.2) k.size
/-- A plot of the queue: one that runs is asked to stop, one that does not hold tiles ends at once
(DEDUCED, log entry 38). -/
def State.resetPlot (s : State) (k : Nat) (pl : Plot) : State :=
  let s := (s.mapPlot k (fun p => { p with reset := true })).endLease k 0
  match pl.st with
  | .running | .paused => s.requestStop k ⟨.preempt, 0xE1, 0, 0⟩
  | .placing | .preempted => s.killPlot k
  | .armed =>
    let s := (s.tilesOf k pl).foldl (fun s n => s.mapTile n Tile.freed) s
    s.killPlot k
  | _ => s
/-- QUEUE_RESET. -/
def State.queueReset (s : State) (q : Nat) : State :=
  let k := s.queue q
  if !k.enabled then s
  else
    let s := (s.cancelAll q (k.words + 1) k.failed).mapQueue q (fun k =>
      { k with enabled := false, resetting := true, bufs := [] })
    let s := (s.plots.filter (fun p => p.2.q = q && p.2.ctx = k.ctx)).foldl (fun s p => s.resetPlot p.1 p.2) s
    let s := s.mapCluster loomChannel (fun c => { c with copies := c.copies.map (fun x =>
      if x.q = q then { x with suspended := true } else x) })
    let s := s.mapQueue q (fun k => { k with
      jobs := k.jobs.filter (fun j => !isWait j.kind)
      -- one that has stopped on a queue error keeps it (R415)
      graphs := k.graphs.map (fun g => { g.halt 0x05 0 0 with stop := match g.stop with
        | some (0x06, c, t) => some (0x06, c, t)
        | _ => some (0x05, 0, 0) }) })
    ((s.queue q).graphs.foldl (fun s g => s.endGraph q g.id) s).settleWorkDone
/-- Nodes of a queue being reset whose copies have been quiesced. -/
def State.quietNodes (s : State) (q : Nat) : State :=
  (s.queue q).graphs.foldl (fun s g =>
    let s := (List.range g.nodes.length).foldl (fun s i =>
      match (s.cluster loomChannel).copies.find? (fun c => c.q = q && c.qseq = g.id && c.node == some i) with
      | some c => if c.suspended && c.beats = [] then
          (s.copyEnd loomChannel c).mapGraph q g.id (fun g => g.mapNode i (fun n => { n with st := 3 }))
        else s
      | none => s) s
    s.endGraph q g.id) s
/-- QUEUE_RESET_COMPLETE: the queue's work has stopped, and the reset record is written. -/
def State.resetOver (s : State) (q : Nat) : Bool :=
  let t := s.settleWorkDone.quietNodes q
  let k := t.queue q
  k.resetting && k.jobs = [] && !t.isLate k.ctx
def State.resetComplete (s : State) (q : Nat) : State :=
  if !s.resetOver q then s
  else
    let s := s.settleWorkDone.quietNodes q
    let k := s.queue q
    -- requests that no message has covered are covered by one now (DEDUCED, log entry 38)
    let s := if k.irqs = 0 then s else s.sendIrq q
    let s := s.writeRecord k.ctx (BitVec.ofNat 64 (k.fld 320 64)) 0 0 k.head 0 0 0 0x05
    s.mapQueue q (fun k => { k with resetting := false, stopped := false, failed := false, next := none, irqs := 0 })

end Sys2Proof.Machine
end

