-- ==== Sys2Proof/Machine/Power.lean ====
section
/-! DEFINITION. Power and heat (04 R90-R93, R98, 28 R454-R466) and the loss of the supply with the keep store (R467-R474). -/
namespace Sys2Proof.Machine

/-! ### Bands and refresh (04 R90-R93) -/

/-- The band of a temperature in degrees Celsius. -/
def bandOf (c : Nat) : Nat := if c ≤ 85 then 0 else if c ≤ 95 then 1 else if c ≤ 105 then 2 else 3
/-- The band after a reading: hotter at once, cooler once 2 degrees below the boundary (R90). -/
def nextBand (cur c : Nat) : Nat :=
  if cur < bandOf c then bandOf c else Nat.min cur (bandOf (c + 2))
/-- A granted lease ends (28 R463). -/
def State.endGranted (s : State) (k : Nat) (reason : BitVec 4) : State :=
  match afind s.plots k with
  | some pl => if pl.lease.state = 2 then s.endLease k reason else s
  | none => s
/-- The deadlines of every bank of a tile are counted from now on, where they are not counted yet. -/
def State.refreshAll (s : State) (n : Nat) : State :=
  s.mapTile n (fun t => { t with vault := { t.vault with
    refMp := (List.range 64).foldl (fun l k => if (afind l k).isNone then aset l k s.mp else l) t.vault.refMp } })
/-- BAND_CHANGE: a stack's temperature is read; a band rise ends the leases on its cluster, and above 115 degrees the
cluster stops and its plots take a forced stop with THERM until the stack is below 110 (R90, 28 R463). -/
def State.bandChange (s : State) (cl c : Nat) : State :=
  if s.model.clusters ≤ cl then s
  else
    let k := s.cluster cl
    let band := nextBand k.band c
    let hot := if 115 < c then true else if c < 110 then false else k.hot
    let on := s.plotsOn cl
    let s := s.mapCluster cl (fun k => { k with band := band, hot := hot })
    -- the guard refreshes every bank of a stopped cluster at the deadline of band D
    let s := if hot then ((List.range s.model.tiles).filter (fun n => clusterOf n = cl)).foldl State.refreshAll s else s
    let s := if k.band < band then on.foldl (fun s p => s.endGranted p.1 8) s else s
    if hot && !k.hot then
      on.foldl (fun s p => if p.2.taken.isSome then s else s.force p.1 ⟨.therm, 0xF4, 0, 0⟩) s
    else s

/-- A bank's refresh deadline in mp has run out, of a scheduled stratum or in a stopped cluster (R90, R91, R93). -/
def State.mpDue (s : State) (n bank : Nat) : Bool :=
  let k := s.cluster (clusterOf n)
  match afind (s.tile n).vault.refMp bank with
  | some m => ((s.tile n).vault.scheduled (bank / 16) || k.hot) && deadline k.band ≤ s.mp - m
  | none => false
def State.refreshed (s : State) (n bank : Nat) : State :=
  s.mapTile n (fun t => { t with vault := { t.vault with refMp := aset t.vault.refMp bank s.mp } })
/-- A program command can refresh the bank: its stratum is scheduled, its plot runs and its sc is not frozen (R98, R101). -/
def State.programs (s : State) (n bank : Nat) : Bool :=
  match s.plotOf n with
  | some pl => (s.tile n).vault.scheduled (bank / 16) && pl.st = .running && !(s.tile n).vault.frozen && !(s.tile n).seq.ended
  | none => false
/-- The mp deadline of a bank has expired before its sc bound, with its program to refresh it (R93). -/
def State.mpExpired (s : State) (n bank : Nat) : Bool :=
  s.mpDue n bank && s.programs n bank && ((s.tile n).vault.bank bank).refdue != 0
/-- MP_REFRESH_DEADLINE: the plot takes a forced stop, and the guard refreshes the bank (R93). The trap is THERM wherever
the budget was not overrun, also where frozen sc alone have held the bank's REFDUE back, of which R93 says that it cannot
happen (DESIGN CHOICE, log entry 51). -/
def State.mpDeadline (s : State) (n bank : Nat) : State :=
  match (s.tile n).plot, s.plotOf n with
  | some k, some pl =>
    if s.mpExpired n bank then
      let st : Stop := if pl.overrun || s.overrunNow pl then ⟨.stretch, 0xF1, bank / 16, bank % 16⟩
        else ⟨.therm, 0xF3, bank / 16, bank % 16⟩
      ((s.refreshed n bank).charge pl.ctx 2).force k st
    else s
  | _, _ => s
/-- REFRESH_GUARD_REFRESH: of a bank that no program command can refresh. In a frozen sc of a plot that runs the guard
reopens the recorded row, 48 mp before the next bundle (R98, R101) (DEDUCED, log entry 46; DESIGN CHOICE, log entry 69). -/
def State.guardRefresh (s : State) (n bank : Nat) : State :=
  if s.mpDue n bank && !s.programs n bank then
    let t := s.refreshed n bank
    match (s.tile n).plot, s.plotOf n with
    | some k, some pl =>
      let t := t.charge pl.ctx 2
      if pl.st = .running && ((s.tile n).vault.bank bank).state = 1 && (s.tile n).vault.scheduled (bank / 16) then
        t.mapPlot k (fun p => { p with guardMp := Nat.max p.guardMp (s.mp + 48) })
      else t
    | _, _ => t
  else s

/-! ### Patterns, splits and droop (28 R456-R461) -/

/-- A master pulse that begins a frame (R454). -/
def State.frameStart (s : State) : Bool := s.mp % 16 = 0
def State.setPat (s : State) (cl d : Nat) : State :=
  if (s.cluster cl).pat = d then s
  else (s.mapCluster cl (fun k => { k with pat := d })).patRecord cl
/-- PATTERN_CHANGE: before the pulse that begins a frame the arbiter gives a cluster an allotment, and its pattern becomes its ceiling or
its floor; after a supply loss no ceiling rises (R456, R459, R471). -/
def State.patternChange (s : State) (cl allot : Nat) : State :=
  if !s.frameStart || s.pulsed || s.model.clusters ≤ cl || allot = 0 then s
  else
    let a := Nat.min s.allotMax allot
    if s.pfail.isSome && (s.cluster cl).allot < a then s
    else
      let s := s.mapCluster cl (fun k => { k with allot := a })
      let d := s.target cl
      if s.pfail.isSome && (s.cluster cl).pat < d then s else s.setPat cl d
/-- SPLIT_CHANGE: at a pulse that begins a frame and a sc of the plot, before a tile of it has had its turn in the sc (R456,
R458). -/
def State.splitChange (s : State) (k : Nat) (level : BitVec 2) : State :=
  match afind s.plots k with
  | some pl =>
    if s.frameStart && pl.st = .running && pl.scMp = s.mp && level != 3 && level != pl.split &&
        (s.tilesOf k pl).all (fun n => !(s.tile n).turn) then
      (s.mapPlot k (fun p => { p with split := level })).patPlot (clusterOf (pl.tileAt pl.lx0 pl.ly0)) { pl with split := level }
    else s
  | none => s
/-- The clusters of a die. -/
def dieClusters (die : Nat) : List Nat := (List.range 16).map (fun i => 16 * die + i)
/-- DROOP: every cluster of the die drops to its floor, and leases on them end (R461, R463)
(DEDUCED, log entry 40). -/
def State.droop (s : State) (die : Nat) : State :=
  if s.model.clusters ≤ 16 * die then s
  else
    let s := { s with droops := aset s.droops die (s.mp + 4000) }
    let s := (s.plots.filter (fun p => p.2.live && p.2.clusters.any (fun cl => cl / 16 = die))).foldl
      (fun s p => s.endGranted p.1 7) s
    (dieClusters die).foldl (fun s cl => s.setPat cl (s.target cl)) s
/-- DROOP_FLOOR_END: the floor has held for 4,000 mp; the ceilings come back at the next frame. -/
def State.droopEnd (s : State) (die : Nat) : State :=
  match afind s.droops die with
  | some u => if u ≤ s.mp then { s with droops := adel s.droops die } else s
  | none => s

/-! ### Leases (28 R463-R465) -/

/-- LEASE_GRANT: a pending lease is granted at the least of its pulses and the band ceilings. -/
def State.leaseGrant (s : State) (k : Nat) : State :=
  match afind s.plots k with
  | some pl =>
    if pl.lease.state = 1 && s.pfail.isNone && pl.lease.uj != 0 && pl.live then
      let p := pl.clusters.foldl (fun m cl => Nat.min m (bandPulses (s.cluster cl).band)) pl.lease.ask
      let energy := (s.ctx pl.ctx).energy
      s.setLease k (fun l => { l with state := 2, reason := 0, pulses := p, mp := s.mp, energy := energy, again := false })
    else s
  | none => s
/-- LEASE_DENY. -/
def State.leaseDeny (s : State) (k : Nat) (reason : BitVec 4) : State :=
  match afind s.plots k with
  | some pl => if pl.lease.state = 1 then s.endLease k (if pl.lease.again then 10 else reason) else s
  | none => s
def State.leaseTimeUp (s : State) (pl : Plot) : Bool := pl.lease.state = 2 && pl.lease.us ≤ mpUs (s.mp - pl.lease.mp)
/-- The energy charged since the grant has reached CAP (R463). -/
def State.leaseSpent (s : State) (pl : Plot) : Bool :=
  pl.lease.state = 2 && 1024 * pl.lease.uj ≤ (s.ctx pl.ctx).energy.toNat - pl.lease.energy.toNat
/-- LEASE_DUR_EXPIRY and LEASE_CAP_REACHED. -/
def State.leaseDur (s : State) (k : Nat) : State :=
  match afind s.plots k with
  | some pl => if s.leaseTimeUp pl then s.endLease k 5 else s
  | none => s
def State.leaseCap (s : State) (k : Nat) : State :=
  match afind s.plots k with
  | some pl => if s.leaseSpent pl then s.endLease k 6 else s
  | none => s

/-! ### The loss of the supply (28 R471) -/

/-- SUPPLY_LOSS: every lease ends; from here the Loom starts nothing, the power is capped, which lowers the ceilings from the
next frame, and PFAIL is on its way. -/
def State.supplyLoss (s : State) : State :=
  if s.pfail.isSome then s
  else
    let s := { s with pfail := some { mp := s.mp, chunks := 0, uj := 0, lost := [] } }
    s.plots.foldl (fun s p => s.endLease p.1 4) s
/-- PFAIL_ARRIVAL: a running or paused plot is sent PFAIL. -/
def State.pfailArrival (s : State) (k : Nat) : State :=
  match afind s.plots k with
  | some pl =>
    if s.pfail.isSome && pl.pfailAt.isNone && (pl.st = .running || pl.st = .paused) then
      (s.mapPlot k (fun p => { p with pfailAt := some s.mp })).requestStop k ⟨.pfail, 0xE8, 0, 0⟩
    else s
  | none => s
/-- PFAIL_HOLD_TIMEOUT: 200 µs after the arrival the plot has not reached a hold. -/
def State.pfailLate (s : State) (pl : Plot) : Bool :=
  pl.st = .running && pl.taken.isNone && (match pl.pfailAt with | some m => 800000 ≤ s.mp - m | none => false)
def State.pfailTimeout (s : State) (k : Nat) : State :=
  match afind s.plots k with
  | some pl => if s.pfailLate pl && pl.forced.isNone then s.force k ⟨.pfail, 0xE8, 0, 0⟩ else s
  | none => s

/-! ### The keep store (28 R467-R474) -/

/-- Chunks of an item on one tile (R468). -/
def MustEnt.chunks (m : MustEnt) : Nat :=
  match m.kind with
  | 0 => 118
  | 1 => (m.size + 4095) / 4096
  | 2 => (m.size + 1) / 2
  | 3 => 1
  | _ => 5
def MustEnt.chunkCost (m : MustEnt) : Nat := if m.kind = 2 then 24 else 20
/-- The ranks that an item covers. -/
def MustEnt.ranks (m : MustEnt) (pl : Plot) : List Nat :=
  if m.kind = 4 then [0] else if m.all then pl.own else pl.own.filter (· == m.rank)
/-- A running packet of a queue in 32 bytes: ring index, record address, number, kind (DESIGN CHOICE, log entry 13). -/
def Job.word (j : Job) : Nat :=
  j.seq + j.recVa.toNat * 2 ^ 64 + j.id * 2 ^ 128 +
  (match j.kind with | .launch _ => 0x01 | .copy => 0x02 | .wait _ _ _ _ _ => 0x04 | .graph => 0x07) * 2 ^ 192
/-- State of a queue: descriptor, head, tail and running packets; then 4 bytes for each node of its graphs, PREDCNT and
STATE (R468; DESIGN CHOICE, log entry 13). -/
def queueChunk (k : Queue) (j : Nat) : List Byte :=
  if j = 0 then
    let jobs := k.jobs.take 124
    leBytes 64 k.desc.toNat ++ leBytes 4 k.head ++ leBytes 4 k.tail ++ leBytes 8 k.count ++ leBytes 48 jobs.length ++
    jobs.flatMap (fun j => leBytes 32 j.word) ++ List.replicate (32 * (124 - jobs.length)) 0
  else
    let ns := k.graphs.flatMap (·.nodes)
    (List.range 1024).flatMap (fun i => match ns[1024 * (j - 1) + i]? with
      | some n => leBytes 4 (n.pred.toNat + n.st.toNat * 2 ^ 16)
      | none => [0, 0, 0, 0])
/-- The bytes of chunk j of an item of plot pl at a rank, 4 KiB, 0 where the item ends (UNVERIFIED, log entry 33). -/
def State.chunkBytes (s : State) (pl : Plot) (m : MustEnt) (rank j : Nat) : List Byte :=
  -- a tile that was freed before the stop is taken as it was then
  let img := (afind pl.saved rank).or (afind pl.freed rank)
  let t := match img with | some q => q.tile | none => Tile.reset
  let n := pl.tileAt (rank % pl.w) (rank / pl.w)
  let b := match m.kind with
    | 0 => regChunk t j
    | 1 => (match img with
        | some q => Memory.read q.spad (m.base + 4096 * j) (Nat.min 4096 (m.size - 4096 * j))
        | none => [])
    | 2 =>
      let base := if t.vault.svc m.st then 0 else t.vault.base m.st
      (List.range (Nat.min 2 (m.size - 2 * j))).flatMap (fun i =>
        Memory.read s.mem (vaultAddr n m.st 0 (base + m.base + 2 * j + i) 0) 2048)
    | 3 => (List.range 48).flatMap (fun i => leBytes 32 (t.bar i).word)
    | _ => queueChunk (s.queue pl.q) j
  b ++ List.replicate (4096 - b.length) 0

/-- One step of CRC-32C on a byte (polynomial 0x1EDC6F41, reflected). -/
def crcByte (c : BitVec 32) (b : Byte) : BitVec 32 :=
  (List.range 8).foldl (fun c _ => if c.getLsbD 0 then (c >>> 1) ^^^ 0x82F63B78 else c >>> 1) (c ^^^ b.setWidth 32)
def crc32c (bs : List Byte) : BitVec 32 := ~~~(bs.foldl crcByte 0xFFFFFFFF)
/-- The seal of a chunk (R472). -/
def sealOf (b : List Byte) (seqno image index rank item ctx : Nat) : List Byte :=
  let w := seqno * 2 ^ 192 + image * 2 ^ 160 + index * 2 ^ 128 + rank * 2 ^ 117 + item * 2 ^ 113 + ctx * 2 ^ 107
  let head := leBytes 28 w
  head ++ leBytes 4 (crc32c (b ++ head)).toNat

/-- The place of chunk k of the sequence in the keep store, behind the boot journal; its seal follows it (DESIGN CHOICE, log
entry 13). -/
def chunkAddr (k : Nat) : Nat := 0x200000 + 4128 * k
/-- Chunk k counts as sealed: its CRC verifies, and its SEQNO is its place in the order (R472). -/
def chunkSealed (keep : List Host.Cell) (k : Nat) : Bool :=
  let b := Memory.read keep (chunkAddr k) 4124
  leNat (Memory.read keep (chunkAddr k + 4124) 4) = (crc32c b).toNat && leNat ((b.drop 4120).take 4) = k + 1
/-- The chunks of an entry that were written: as many as the save engine has sealed. -/
def writtenChunks (e : Nat) : Nat := bitsOf e 64 32
/-- A restart-record entry as it reads once its chunks, which stand from place `first` of the sequence on, have been checked:
NSEALED, CLASS and WHY (R472, R474). -/
def checkedEntry (keep : List Host.Cell) (first e : Nat) : Nat :=
  let wrote := writtenChunks e
  let ok := ((List.range wrote).filter (fun i => chunkSealed keep (first + i))).length
  let want := bitsOf e 96 32
  let (cls, why) : Nat × Nat := if bitsOf e 14 3 = 3 then (0, 3)
    else if ok = 0 then (0, if wrote = 0 then 1 else 4)
    else if ok < want then (1, if ok = wrote then 1 else 4)
    else (bitsOf e 17 2, bitsOf e 14 3)
  e - bitsOf e 64 32 * 2 ^ 64 - bitsOf e 17 2 * 2 ^ 17 - bitsOf e 14 3 * 2 ^ 14 + ok * 2 ^ 64 + cls * 2 ^ 17 + why * 2 ^ 14
/-- The entries of the restart record (R473). -/
def restartEntries (keep : List Host.Cell) : List Nat :=
  (List.range (leNat (Memory.read keep 52 4))).map (fun i => leNat (Memory.read keep (64 + 32 * i) 32))
/-- Entries checked in order: the chunks of each follow those of the entries before it (R471, R472). -/
def checkedFrom (keep : List Host.Cell) : (first : Nat) → List Nat → List Nat
  | _, [] => []
  | first, e :: r => checkedEntry keep first e :: checkedFrom keep (first + writtenChunks e) r
/-- The entries of the restart record as the policy core reads them, with every chunk checked (R472, R473); none where step 6
of the start has failed (30 R494). -/
def State.restartRead (s : State) : List Nat := if s.boot.unread then [] else checkedFrom s.keep 0 (restartEntries s.keep)
/-- The bytes of the record as the host reads it: the header, which counts no entries where none are read, and the entries
(R473). -/
def State.restartBytes (s : State) : List Byte :=
  Memory.read s.keep 0 52 ++ (if s.boot.unread then leBytes 4 0 else Memory.read s.keep 52 4) ++ Memory.read s.keep 56 8 ++
  s.restartRead.flatMap (leBytes 32)
/-- What a query for an item answers: its entry, or, without one, an entry that says absent (R474). -/
def State.restartItem (s : State) (c item : Nat) : Nat :=
  (s.restartRead.find? (fun e => bitsOf e 26 6 = c && bitsOf e 22 4 = item)).getD (c * 2 ^ 26 + item * 2 ^ 22)

/-- A chunk to be written: plot, item number, item, rank and index. -/
structure ChunkAt where
  pl : Plot
  item : Nat
  m : MustEnt
  rank : Nat
  index : Nat
deriving DecidableEq, Repr
/-- The items of the charged declarations, by context and item, each with its plot (R471). -/
def State.items (s : State) : List (Plot × Nat × MustEnt) :=
  sortBy (fun i : Plot × Nat × MustEnt => 16 * i.1.ctx + i.2.1) ((s.plots.filter (fun p => p.2.charged)).flatMap (fun p =>
    ((List.range p.2.tt.musts.length).zip p.2.tt.musts).map (fun i => (p.2, i))))
/-- An item of a plot is lost on a tile of a cluster whose retention parity failed (R471) (DEDUCED, log entry 49). -/
def State.itemLost (s : State) (pl : Plot) (m : MustEnt) (rank : Nat) : Bool :=
  let cl := clusterOf (pl.tileAt (rank % pl.w) (rank / pl.w))
  m.kind != 4 && (match s.pfail with | some f => f.lost.contains cl | none => false)
/-- The chunks of the sequence in order: contexts, items, ranks, addresses; those of a plot that never ran are not
written (R471). -/
def State.chunkList (s : State) : List ChunkAt :=
  s.items.flatMap (fun i =>
    let pl := i.1
    let m := i.2.2
    (m.ranks pl).flatMap (fun r =>
      if s.itemLost pl m r || (m.kind != 4 && pl.taken.isNone && pl.saved = [] && pl.freed = []) then []
      else (List.range m.chunks).map (fun j => ⟨pl, i.2.1, m, r, j⟩)))
/-- TSCYC of the stop that a plot has taken, RLOST among them (R473). -/
def Plot.stopSc (pl : Plot) : Nat :=
  match pl.taken, pl.ended with
  | some t, _ => t.2.1
  | none, some e => e.2.1
  | none, none => 0
/-- Restart-record entry of an item (R473, R474). -/
def State.restartEntry (s : State) (all : List ChunkAt) (pl : Plot) (i : Nat) (m : MustEnt) : Nat :=
  let mine := (all.filter (fun c => c.pl == pl && c.item = i)).length
  let want := m.chunks * (m.ranks pl).length
  let lost := (m.ranks pl).any (fun r => s.itemLost pl m r)
  let forced := match pl.taken with | some t => t.2.2 | none => false
  let torn := forced && 1 < pl.w * pl.h && (m.kind = 0 || m.kind = 3)
  let (cls, why) : Nat × Nat := if lost then (0, 3) else if mine = 0 then (0, 1) else if mine < want then (1, 1)
    else if torn then (1, 5) else (2, 0)
  let mark := afind pl.marks i
  (match mark with | some k => k.seq.toNat * 2 ^ 224 + k.scyc * 2 ^ 176 | none => 0) +
  pl.stopSc * 2 ^ 128 + want * 2 ^ 96 + mine * 2 ^ 64 +
  pl.tt.imageId.toNat * 2 ^ 32 + pl.ctx * 2 ^ 26 + i * 2 ^ 22 + m.kind * 2 ^ 19 + cls * 2 ^ 17 + why * 2 ^ 14 +
  forced.toNat * 2 ^ 13 + mark.isSome.toNat * 2 ^ 12
/-- The plots with a charged declaration have all stopped, and no plot runs or is paused (R471). -/
def State.keepReady (s : State) : Bool :=
  s.pfail.isSome && s.plots.all (fun p => !(p.2.st = .running || p.2.st = .paused))
/-- KEEP_STORE_SAVE: the chunks and their seals, then the restart record, and the module powers down (R471, R473). Where
a D48N, which has no keep store, holds its restart record is a DESIGN CHOICE (log entry 65). -/
def State.keepSave (s : State) : State :=
  match s.pfail with
  | none => s
  | some f =>
    if !s.keepReady then s
    else
      let all := s.chunkList
      let ents := s.items.map (fun i => s.restartEntry all i.1 i.2.1 i.2.2)
      let s := (all.zip (List.range all.length)).foldl (fun s c =>
        let b := s.chunkBytes c.1.pl c.1.m c.1.rank c.1.index
        let z := sealOf b (c.2 + 1) c.1.pl.tt.imageId.toNat c.1.index c.1.rank c.1.item c.1.pl.ctx
        { s with keep := Memory.write s.keep (chunkAddr c.2) (b ++ z) }.charge c.1.pl.ctx 5) s
      let uj := (all.map (fun c => c.m.chunkCost)).foldl (· + ·) 0
      let head := s.nsAt f.mp * 2 ^ 448 + ents.length * 2 ^ 416 + all.length * 2 ^ 384 + uj * 2 ^ 352
      { s with
        keep := Memory.write s.keep 0 (leBytes 64 head ++ ents.flatMap (leBytes 32))
        pfail := some { f with chunks := all.length, uj := uj }
        down := true }

end Sys2Proof.Machine
end

