-- ==== Sys2Proof/Machine/Observe.lean ====
section
/-! DEFINITION. Observation (29 R479-R481), Sprintum links (30 R486-R490) and the start of the module (R494-R495). -/
namespace Sys2Proof.Machine

/-! ### PC sampling -/

/-- The reason of a sample (R480). -/
def State.reason (s : State) (n : Nat) : Nat :=
  let t := s.tile n
  match s.plotOf n with
  | none => 0
  | some pl =>
    let monitor := t.trap.sup && !t.seq.ended
    if monitor && t.trap.tcause.toNat % 256 != 4 then 8
    else if monitor then 7
    else if t.seq.ended && s.busyQueues n then 9
    else if pl.st = .paused then 2
    else match t.seq.wait with
      | .barw _ _ _ => 3
      | .waita _ _ _ _ _ => 4
      | w =>
        -- a start offset is no ALIGN: nothing has issued yet
        let aligned : Bool := match w with | .align a => pl.scyc < a && t.seqNo != 0 | _ => false
        if aligned then 1
        else if pl.pulMp != s.mp then 5
        else if pl.got != 0 then 6 else 0
/-- A tile of a running context is sampled at this master pulse (R479). -/
def State.sampleDue (s : State) (n : Nat) : Bool :=
  match s.plotOf n with
  | some pl =>
    let si := match afind s.parts (s.partOf pl.ctx) with | some p => p.sampling | none => 0
    si != 0 && (pl.st = .running || pl.st = .paused) && !s.sampled.contains n && s.mp % si = 8 * n % si
  | none => false
/-- PC_SAMPLE. -/
def State.pcSample (s : State) (n : Nat) : State :=
  if !s.sampleDue n then s
  else
    let t := s.tile n
    let why := s.reason n
    -- at the later pulses of a split sc the bundle that issues is the one latched on pulse 0
    let at_ : Nat × Nat × Nat := match t.shown, why with
      | some p, 6 => p
      | _, _ => s.showing n
    let b := s.now n % 2 ^ 48 * 2 ^ 80 + at_.2.1 * 2 ^ 48 + at_.1 % 2 ^ 24 * 2 ^ 24 + why * 2 ^ 20 + at_.2.2 % 8 * 2 ^ 17
    { s.tileRecord n 0x60 (if why = 8 then t.trap.tcause.toNat % 256 else 0) b with sampled := n :: s.sampled }

/-! ### Counters -/

/-- The counts of a tile's master pulse by its reason (R481). -/
def State.countReason (s : State) (n : Nat) : State :=
  let why := match s.plotOf n with
    | some pl => if pl.st = .running || pl.st = .paused then s.reason n else 0
    | none => 0
  let s := if why != 0 then s.countTile n 4 1 else s
  if why = 5 || why = 6 then s.countTile n 5 1 else s
/-- The counts of a master pulse by reason. -/
def State.countReasons (s : State) : State := s.held.foldl State.countReason { s with counted := true }
/-- START_PULSE; where the reasons of the master pulse have been counted, those of the plot's tiles are counted too. -/
def State.startCounted (s : State) (k : Nat) : State :=
  match afind s.plots k with
  | none => s
  | some pl =>
    let t := s.startPulse k
    if pl.st = .armed && s.counted then (s.tilesOf k pl).foldl State.countReason t else t
/-- 10 µs have passed since the last write of a partition's block (R481). -/
def State.snapDue (s : State) (p : Nat) : Bool :=
  match afind s.parts p with
  | some q => q.blockPa != 0 && 40000 ≤ s.mp - q.snapMp
  | none => false
/-- COUNTER_SNAPSHOT: granules 1 and 2, then granule 0. -/
def State.counterSnapshot (s : State) (p : Nat) : State :=
  match afind s.parts p with
  | some q =>
    if !s.snapDue p then s
    else
      let seq := q.blockSeq + 1
      let s := { s with parts := aset s.parts p { q with blockSeq := seq, snapMp := s.mp } }
      (s.memWrite (q.blockPa + 64) ((List.range 16).flatMap (fun i => leBytes 8 (aget 0 q.counts i).toNat))).memWrite
        q.blockPa (leBytes 8 seq.toNat ++ leBytes 8 s.ns)
  | none => s

/-! ### Links -/

def State.setLink (s : State) (n : Nat) (l : Link) : State := { s with links := aset s.links n l }
/-- A link whose stream lane is usable at full rate: cabled as R488 pairs it, in a D48 or D48N. -/
def State.streams (s : State) (link peer peerLink : Nat) : Bool :=
  s.model != .d24 && peer < 4 && pairedLink s.group.2.2 peer link = some peerLink
/-- The index in the plot group that a link's partner gives this module (R488). -/
def State.indexBy (s : State) (link : Nat) : Option Nat :=
  let l := s.link link
  (List.range 4).find? (fun m => pairedLink m l.peerMod.toNat link = some l.peerLink.toNat)
/-- The plot group that the cabling forms, as far as this module's links show it: columns, rows and the module's own index,
which the lowest link that R488 pairs gives (R489; DESIGN CHOICE, log entry 7). -/
def State.cabledGroup (s : State) : Nat × Nat × Nat :=
  let ls := (List.range s.model.links).filterMap (fun l => (s.indexBy l).map (fun m => (m, (s.link l).peerMod.toNat)))
  if s.model = .d24 then (1, 1, 0)
  else match ls with
    | [] => (1, 1, 0)
    | (m, _) :: _ =>
      let mine := ls.filter (fun p => p.1 = m)
      (if mine.any (fun p => p.2 % 2 != m % 2) then 2 else 1, if mine.any (fun p => p.2 / 2 != m / 2) then 2 else 1, m)
/-- The selvage clock aligned to that of module 0, which is another module's (29 R476; DESIGN CHOICE, log entry 7). -/
def State.alignClock (s : State) : State :=
  if s.group.2.2 = 0 then s else { s with nsOff := Config.groupClock s.freeCtr, freeCtr := s.freeCtr + 1 }
/-- A plot that runs, is paused or is armed spans a link (R490). -/
def State.spansLink (s : State) (pl : Plot) (link : Nat) : Bool :=
  pl.live && (spanLinks s.group.2.2 pl.w pl.h).contains link
/-- LINK_TRAINING at a rate of R487: 1 for 224, 2 for 112, 3 for 56 Gb/s per lane; a flight time above 150 ns fails at
224 (R486). The partner's place forms the plot group. No link is trained while a plot holds it (R490). -/
def State.linkTraining (s : State) (link peerMod peerLink flightPs rate : Nat) : State :=
  if s.model.links ≤ link || rate = 0 || 3 < rate || s.plots.any (fun p => s.spansLink p.2 link) then s
  else
    let bad := rate = 1 && 150000 < flightPs
    let l := { s.link link with peerMod := BitVec.ofNat 8 peerMod, peerLink := BitVec.ofNat 4 peerLink }
    let s := s.setLink link l
    let s := ({ s with group := s.cabledGroup } : State).alignClock
    s.setLink link (if bad then { l with stream := false, rate := 0, state := 3 }
      else { l with stream := rate = 1 && s.streams link peerMod peerLink, rate := BitVec.ofNat 8 rate, state := 2 })

/-- An access of a tile goes to a peer module over a link (R490). -/
def State.takesLink (s : State) (n : Nat) (d : Dyn) (link : Nat) : Bool :=
  match s.reach (s.agentOf n true none) d.va (match d.kind with | .ldr => .read | .str => .write | .atom _ _ => .atomic) with
  | .peer pa => s.linkTo (pa / 2 ^ 48 % 4) = some link
  | _ => false
/-- A plot that spans a lost link stops whole: its accesses over the link fault, no completion comes over it, and every
tile without a trap of its own takes PSTOP at its next boundary, at once where the plot is paused (R490). -/
def State.linkStop (s : State) (k link : Nat) : State :=
  match afind s.plots k with
  | none => s
  | some pl =>
    let ns := s.tilesOf k pl
    let u := if pl.st = .paused then pl.scyc + 1 else pl.scyc
    let s := if pl.st = .paused then s.afterHold k pl else s
    -- tiles that an armed plot has still to take find it when they are armed
    let s := if pl.st = .armed then s.mapPlot k (fun p => { p with psent := some (u, pstopVal 0 link 0 0) }) else s
    ns.foldl (fun s n => s.mapTile n (fun t =>
      let t := { t with bars := t.bars.map (fun p =>
        if p.1 != 48 && Inst.spans pl (instOf pl t.lx t.ly p.2) then (p.1, { p.2 with seenAt := [] }) else p) }
      if t.trap.sup || t.trap.halted || t.seq.ended || t.trap.stopAt.isSome then t
      else { t with trap := { t.trap with stopAt := some (u, pstopVal 0 link 0 0) } })) (s.endLease k 0)
/-- LINK_LOSS: the link leaves STATE 2, or loses its stream lane alone, and every plot that spans it stops (R490). -/
def State.linkLoss (s : State) (link : Nat) (laneOnly : Bool) : State :=
  let l := s.link link
  if l.state != 2 || (laneOnly && !l.stream) then s
  else
    let across := s.plots.filter (fun p => s.spansLink p.2 link)
    let s := across.foldl (fun s p => (s.tilesOf p.1 p.2).foldl (fun s n =>
      ((s.tile n).dyn.filter (fun d => d.fault.isNone && s.takesLink n d link)).foldl (fun s d => s.dynFail n d peerRefused) s) s) s
    let s := s.setLink link (if laneOnly then { l with stream := false }
      else { l with stream := false, rate := 0, state := 0 })
    across.foldl (fun s p => s.linkStop p.1 link) s

/-! ### The start of the module -/

/-- A step of a start begun. -/
def Boot.enter (b : Boot) (i : Nat) : Boot := { b with last := BitVec.ofNat 8 i, journal := b.journal ++ [(i, 1)] }
/-- A step of a start done, or failed; the first that fails is FAILSTEP. -/
def Boot.leave (b : Boot) (i : Nat) (ok : Bool) : Boot :=
  { b with journal := b.journal ++ [(i, if ok then 2 else 3)], fail := if ok || b.fail != 0 then b.fail else BitVec.ofNat 8 i }
/-- The journal of the current start stands in the keep store, 2 bytes an entry; that of a D48N lies in the policy core's
boot flash (R494; DESIGN CHOICE, log entry 13). -/
def State.putJournal (s : State) : State :=
  if !s.model.hasKeep then s
  else
    let bytes := s.boot.journal.flatMap (fun p => [BitVec.ofNat 8 p.1, BitVec.ofNat 8 p.2]) ++ [0, 0]
    { s with keep := Memory.write s.keep 0x100000 bytes }
/-- What the module keeps through a start: what is not volatile, and what lies outside it (PRESUMED, log entry 43). -/
def State.cold (s : State) : State :=
  { State.reset with
    model := s.model, keep := s.keep, agenda := s.agenda, answers := s.answers, freeCtr := s.freeCtr,
    plotNo := s.plotNo
    boot := { Boot.reset with trained := s.boot.trained } }
/-- The tests of step 4: tiles withheld, and banks of the vector file mapped out (11 R197). -/
def State.applyTests (s : State) (r : StartRun) : State :=
  let s := r.badTiles.foldl (fun s n => if n < s.model.tiles then s.mapTile n (fun t => { t with withheld := true }) else s) s
  r.badBanks.foldl (fun s p => if p.1 < s.model.tiles then
    s.mapTile p.1 (fun t => { t with vbanks := t.vbanks.filter (· != p.2) }) else s) s
/-- Step 5 loads the monitor store of every tile (27 R435). -/
def State.loadMonitor (s : State) (m : Store 32) : State :=
  if m = [] then s
  else (List.range s.model.tiles).foldl (fun s n => s.mapTile n (fun t => t.mapSeq (fun q => { q with mstore := m }))) s
/-- Step 7 on one link: at full rate, or at half where the start before failed at full rate (R486, R495). -/
def State.startLink (halves : List Nat) (s : State) (l : LinkRun) : State :=
  let half := halves.contains l.link
  let ok := !l.bad && l.link < s.model.links
  let s := if ok then s.linkTraining l.link l.peerMod l.peerLink l.flightPs (if half then 2 else 1)
    else if l.link < s.model.links then s.setLink l.link { s.link l.link with state := 3 } else s
  if l.link < s.model.links then
    s.setLink l.link { s.link l.link with half := !half && (s.link l.link).state = 3 }
  else s
/-- The supply is lost during step i, which is left begun and counts as failed: the start after takes the alternative of a
full step (R494, R495; DEDUCED, log entry 70). -/
def State.cutStart (s : State) (r : StartRun) (alt : Bool) (halves : List Nat) (i : Nat) : State :=
  let s := { s with down := true, boot := { s.boot with retrain := i = 3 && !alt } }
  if i = 7 then
    (r.links.filter (fun l => l.link < s.model.links && !halves.contains l.link)).foldl (fun s l =>
      s.setLink l.link { s.link l.link with half := true }) s
  else s
/-- The steps of a start, in order from step i: the boot record, and what the steps set; none follows a step that stops
the start. -/
def State.startSteps (s : State) (r : StartRun) (alt : Bool) (halves : List Nat) : (fuel i : Nat) → State
  | 0, _ => s
  | fuel + 1, i =>
    let s := ({ s with boot := s.boot.enter i } : State).putJournal
    if r.cut = i then s.cutStart r alt halves i
    else
    let bad := r.fails.getLsbD (i - 1)
    let done (s : State) (ok : Bool) : State := ({ s with boot := s.boot.leave i ok } : State).putJournal
    let stop (s : State) : State := { s with boot := { s.boot with state := 3 } }
    let on (s : State) : State := s.startSteps r alt halves fuel (i + 1)
    match i with
    | 3 =>
      let ok := if alt then s.boot.trained else !bad
      let s := done { s with boot := { s.boot with trained := s.boot.trained || (!alt && ok), retrain := !alt && !ok } } ok
      if ok then on s else stop s
    | 4 =>
      let s := s.applyTests r
      on (done s (!bad && r.badTiles = [] && r.badBanks = []))
    | 5 => if bad then stop (done s false) else on (done (s.loadMonitor r.monitor) true)
    | 6 => on (done { s with boot := { s.boot with unread := bad } } !bad)
    | 7 =>
      let s := r.links.foldl (State.startLink halves) s
      on (done s (!bad && r.links.all (fun l => (s.link l.link).state != 3)))
    | _ => if bad then stop (done s false) else on (done s true)
/-- MODULE_START (R494, R495): every step in order; the alternative of step 3 is taken after a start that failed it. A
supply that returns during the sequence of a loss does not shorten it (28 R471). -/
def State.moduleStart (s : State) (r : StartRun) : State :=
  if s.pfail.isSome && !s.down then s
  else
  let alt := s.boot.retrain
  let halves := (s.links.filter (fun l => l.2.half)).map (·.1)
  let halved := r.links.any (fun l => halves.contains l.link)
  let s := s.cold.startSteps r alt halves 8 1
  if s.boot.state = 3 || s.down then s
  else { s with boot := { s.boot with state := if s.boot.fail != 0 || alt || halved then 2 else 1 } }

end Sys2Proof.Machine
end

