-- ==== Sys2Proof/Machine/HostRows.lean ====
section
/-! DEFINITION. What the policy core, the host and a peer do to the module: range entries (07 R115-R116), invalidation
(R129), service markings (04 R82), CXL.mem (07 R126, 22 R387), inbound accesses (07 R125), and registers written (00 R11). -/
namespace Sys2Proof.Machine

/-! ### Range entries -/

/-- Bits from lo to hi. -/
def maskBits (lo hi : Nat) : Nat := 2 ^ (hi + 1) - 2 ^ lo
/-- An entry with its reserved bits 0 (00 R10, R115). -/
def RangeE.clean (e : RangeE) : RangeE :=
  let m := maskBits 12 55 + maskBits 63 63 + maskBits 76 119 + maskBits 128 134 + maskBits 140 179 +
    (if RangeE.twin e then maskBits 204 243 else if RangeE.repl e then maskBits 192 223 else 0)
  e &&& BitVec.ofNat 256 m
/-- A span crosses the end of a stratum or of a scratchpad (R116); the code of a peer's address is in bits [47:44]. -/
def crosses (p : Nat × Nat) : Bool :=
  let r := p.1 / 2 ^ 48
  let code := if r < 2 then r else p.1 / 2 ^ 44 % 16
  if 8 ≤ r then false
  else if code = 0 then (p.1 + p.2 - 1) / 2 ^ 27 != p.1 / 2 ^ 27
  else spadSize < p.1 % 2 ^ 20 + p.2
/-- The spans of a context's valid entries that are not SHARED. -/
def State.unshared (s : State) (x : Ctx) : List (Nat × Nat) :=
  (x.ranges.filter (fun p => RangeE.v p.2 && !RangeE.shared p.2)).flatMap (fun p => s.ownSpans (RangeE.spans p.2))

/-- The policy core refuses an entry (R116). -/
def State.rangeBad (s : State) (c i : Nat) (e : RangeE) : Bool :=
  let others := (s.ctxs.filter (fun p => p.1 != c)).map (·.1)
  let spans := s.ownSpans (RangeE.spans e)
  RangeE.vlast e < RangeE.vbase e ||
  (s.ctx c).ranges.any (fun p => p.1 != i && RangeE.v p.2 && RangeE.vbase p.2 ≤ RangeE.vlast e &&
    RangeE.vbase e ≤ RangeE.vlast p.2) ||
  (RangeE.spans e).any crosses || (RangeE.twin e && RangeE.repl e) ||
  (RangeE.twin e && spansMeet (RangeE.base0 e * 4096, RangeE.size e) (RangeE.base1 e * 4096, RangeE.size e)) ||
  ((RangeE.twin e || RangeE.repl e) && RangeE.base0 e * 4096 / 2 ^ 48 != 0) ||
  (RangeE.twin e && RangeE.base1 e * 4096 / 2 ^ 48 != 0) ||
  (RangeE.repl e && ((RangeE.clusters e).length < 2 || 8 < (RangeE.clusters e).length ||
    !(RangeE.clusters e).contains (clusterOf (RangeE.base0 e * 4096 / 2 ^ 29 % 512)) || RangeE.shared e)) ||
  (!RangeE.shared e && (others.any (fun k => anyMeet spans (s.mapped k)) || anyMeet spans s.hostMapped)) ||
  others.any (fun k => anyMeet spans (s.unshared (s.ctx k)))
/-- A context holds tiles. -/
def State.liveCtx (s : State) (c : Nat) : Bool := s.plots.any (fun p => p.2.live && p.2.ctx = c)
/-- Every copy of a context is suspended, it has no publish under way, and none of its dynamic accesses is outstanding (R116). -/
def State.ctxIdle (s : State) (c : Nat) : Bool :=
  (s.ctx c).pubs = [] &&
  s.clusters.all (fun k => k.2.copies.all (fun q => q.ctx != c || q.suspended)) &&
  s.held.all (fun n => s.ctxOf n != c || (s.tile n).dyn = [])
/-- RANGE_ENTRY_INSTALL: an entry is written, or refused with the table unchanged. It takes effect with the next
invalidation (R129), which goes with it where the context is live; that is while it has no work outstanding (R116). -/
def State.rangeInstall (s : State) (c i : Nat) (e : BitVec 256) : State :=
  let e := RangeE.clean e
  let live := s.liveCtx c
  if 64 ≤ c || 64 ≤ i || (RangeE.v e && s.rangeBad c i e) || (live && !s.ctxIdle c) then s
  else s.mapCtx c (fun x => { x with
    ranges := sset 0 x.ranges i e, active := if live then sset 0 x.active i e else x.active })
/-- TRANSLATION_INVALIDATE: every Shuttle drops what it has cached of a context; its range entries, PTROOT and page-table
entries are taken as they are now (R129). -/
def State.invalidate (s : State) (c : Nat) : State :=
  { s.mapCtx c (fun x => { x with active := x.ranges, ptActive := x.ptroot, ptMem := s.mem }) with
    tlb := s.tlb.filter (fun t => t.ctx != c) }

/-- A stratum of a tile holds live data of a context: what one maps or a save area, or rows of a pre-empted timetable's
windows (04 R82). -/
def State.holdsData (s : State) (n st : Nat) : Bool :=
  let lo := n * 2 ^ 29 + st * 2 ^ 27
  anyMeet [(lo, 2 ^ 27)] (s.liveSpans ++ s.slotSpans) ||
  s.plots.any (fun p => p.2.unfinished && p.2.saved.any (fun q =>
    q.2.place = n && (Vault.windowSpans q.2.tile.vault).any (fun a => a.1 / 2 ^ 27 = st)))
/-- SERVICE_MARKING_CHANGE: at most two strata of a tile that no plot holds; those that change hold no live data (04 R82)
(DEDUCED, log entry 44). -/
def State.serviceMarking (s : State) (n : Nat) (m : BitVec 4) : State :=
  if s.model.tiles ≤ n || 2 < pop4 m.toNat || (s.tile n).plot.isSome ||
      (List.range 4).any (fun st => m.getLsbD st != s.marked n st && s.holdsData n st) then s
  else s.mapTile n (fun t => { t with vault := { t.vault with svcMark := m } })

/-! ### The host and peers -/

def State.answer (s : State) (b : List Byte) : State := { s with answers := b :: s.answers }
/-- Memory that the host reaches: its own, which the module addresses as region 0x8 to 0xF, and device memory inside a
decoder, in one service stratum (07 R114, R126). -/
def State.hostReaches (s : State) (pa len : Nat) : Bool :=
  (len != 0 && 8 ≤ pa / 2 ^ 48 && pa + len ≤ 2 ^ 52) || len != 0 && pa / 2 ^ 48 = 0 && s.localPlace pa == .here pa && (pa + len - 1) / 2 ^ 27 = pa / 2 ^ 27 &&
  s.hdm.any (fun d => d.2.1 ≤ pa && pa + len ≤ d.2.1 + d.2.2)
/-- HOST_CXL_MEM_READ: every device write performed before is returned (22 R387); a column in error gives no bytes. -/
def State.hostRead (s : State) (pa len : Nat) : State :=
  s.answer (if s.hostReaches pa len && !s.memErr pa len then Memory.read s.mem pa len else [])
/-- HOST_CXL_MEM_WRITE: the write is visible to every device party; its completion is an answer of no bytes. -/
def State.hostWrite (s : State) (pa : Nat) (b : List Byte) : State :=
  (if s.hostReaches pa b.length then s.memWrite pa b else s).answer []

/-- Bytes of an access of a peer module. -/
def peerLen : PeerOp → Nat
  | .write b => b.length
  | .read n => n
  | .atomic _ w64 _ _ => if w64 then 8 else 4
/-- An access of a peer module performed at an address of this one, for its party: the Loom's, where it names none (09
R163, R497). -/
def State.peerDone (s : State) (q : Nat) (acc : PeerAcc) : State :=
  let m : Option Party := acc.party.map (fun p => ⟨none, some p.1, p.2.1, p.2.2⟩)
  let len := peerLen acc.op
  match acc.op with
  | .read _ =>
    (match s.dynRead m q len with
      | .ok (b, s) => s.answer b
      | .error _ => s.answer [])
  | .write b =>
    (match s.dynWrite m q b .write with
      | .ok s => s.answer []
      | .error _ => s.answer [])
  | .atomic op _ x cmp =>
    let old := leNat (Memory.read s.mem q len)
    let new := atomNew op (8 * len) old (x.toNat % 2 ^ (8 * len)) (cmp.toNat % 2 ^ (8 * len))
    (match (s.correctIn q len).dynWrite m q (leBytes len new.1) .write true with
      | .ok s => s.answer (leBytes len old ++ [new.2])
      | .error _ => s.answer [])
/-- An access of a peer module that waits for a bank takes its turn, if it can (09 R158). -/
def State.peerServe (s : State) (id : Nat) : Option State :=
  (afind s.peerQ id).bind (fun p =>
    let write : Bool := match p.2.op with | .read _ => false | _ => true
    let atomic : Bool := match p.2.op with | .atomic _ _ _ _ => true | _ => false
    match s.sideTurn { loomAgent 0 true with req := some (.peer id), atOnce := false } p.1 (peerLen p.2.op) write atomic with
    | (.done _, s') => some (({ s' with peerQ := adel s'.peerQ id } : State).peerDone p.1 p.2)
    | (.ask, s') => some s'
    | _ => none)
/-- The access of a peer module that is served next. -/
def State.peerDue (s : State) : Option Nat := (s.peerQ.find? (fun p => (s.peerServe p.1).isSome)).map (·.1)
/-- PEER_ACCESS_ARRIVAL: a read, a write or an atomic, accepted where it falls in an inbound window (07 R125); one to a
scratchpad takes its turn at its bank (DESIGN CHOICE, log entry 47). -/
def State.peerAccess (s : State) (pa : Nat) (acc : PeerAcc) : State :=
  let len := peerLen acc.op
  let inside := len != 0 && s.inbound.any (fun w => w.2.1 ≤ pa && pa + len ≤ w.2.1 + w.2.2)
  match s.place pa with
  | .here q =>
    if !inside || 8 ≤ q / 2 ^ 48 then s.answer []
    else if (spadOf q).isNone then s.peerDone q acc
    else
      let s' := { s with peerQ := s.peerQ ++ [(s.peerNext, q, acc)], peerNext := s.peerNext + 1 }
      (s'.peerServe s.peerNext).getD s'
  | _ => s.answer []

/-! ### Registers -/

def State.part (s : State) (p : Nat) : Part := aget Part.reset s.parts p
def State.mapPart (s : State) (p : Nat) (f : Part → Part) : State :=
  if 8 ≤ p then s else { s with parts := aset s.parts p (f (s.part p)) }
/-- A byte of a store of 32-bit words. -/
def setByte (m : Store 32) (a : Nat) (b : Byte) : Store 32 :=
  let w := (sget 0 m (a / 4)).toNat
  sset 0 m (a / 4) (BitVec.ofNat 32 (w - w / 2 ^ (8 * (a % 4)) % 256 * 2 ^ (8 * (a % 4)) + b.toNat * 2 ^ (8 * (a % 4))))
def setBytes (m : Store 32) (a : Nat) : List Byte → Store 32
  | [] => m
  | b :: r => setBytes (setByte m a b) (a + 1) r
/-- Offsets of BAR0 that hold what is written: the MSI-X table of 2,048 vectors, and the policy core's mailbox (30 R483;
PRESUMED, log entry 63). -/
def bar0Held (o : Nat) : Bool := (0x200000 ≤ o && o < 0x208000) || (0x1000000 ≤ o && o < 0x2000000)
/-- A word of BAR0 as the host reads it: BOOTSTAT, LINKSTAT, what the table and the mailbox hold, 0 elsewhere, the doorbells
among them (30 R483, R484, 00 R11). -/
def State.bar0Word (s : State) (o : Nat) : BitVec 32 :=
  if o % 4 != 0 then 0
  else if o < 8 then BitVec.ofNat 32 (s.boot.word / 2 ^ (8 * o))
  else if 0x100 ≤ o && o < 0x160 then BitVec.ofNat 32 ((s.link ((o - 0x100) / 8)).word / 2 ^ (8 * (o % 8)))
  else if bar0Held o then sget 0 s.bar0 (o / 4)
  else 0
/-- A host write to BAR0: a doorbell, or a word that is held; any other is ignored (30 R483, R484). -/
def State.bar0Write (s : State) (o : Nat) (v : BitVec 32) : State :=
  if 0x100000 ≤ o && o < 0x100800 && o % 8 = 0 then s.doorbell ((o - 0x100000) / 8) v
  else if bar0Held o && o % 4 = 0 then { s with bar0 := sset 0 s.bar0 (o / 4) v }
  else s
/-- REGISTER_WRITE; a value outside its range leaves the register as it is. EVEC is the tile monitor's own register: the
policy core does not write it (00 R11, 01 R22, 11 R201). -/
def State.regWrite (s : State) (r : RegW) : State :=
  let tile (n : Nat) (f : Tile → Tile) : State := if n < s.model.tiles then s.mapTile n f else s
  let ctx (c : Nat) (f : Ctx → Ctx) : State := if c < 64 then s.mapCtx c f else s
  let cluster (c : Nat) (d : Nat) (f : Cluster → Cluster) : State :=
    if c < s.model.clusters && 1 ≤ d && d ≤ 16 then s.mapCluster c f else s
  match r with
  | .evec _ _ => s
  | .monitor n a b => if a + b.length ≤ 65536 then
      tile n (fun t => t.mapSeq (fun q => { q with mstore := setBytes q.mstore a b })) else s
  | .context c p save => ctx c (fun _ => { Ctx.reset with part := p, savePa := save })
  | .ptroot c pa => ctx c (fun x => { x with ptroot := pa })
  | .faultClear c =>
    let pa := s.headerPa c
    let old := leNat (Memory.read s.mem pa 8)
    if old.testBit 63 then s.memWrite pa (leBytes 8 (old - 2 ^ 63)) else s
  | .powerLimit w => if w ≤ 2800 then { s with powerLimit := w } else s
  | .ctxPower c w => ctx c (fun x => { x with power := w })
  | .partPower p w => s.mapPart p (fun q => { q with power := w })
  | .floor c d => cluster c d (fun k => { k with floor := d })
  | .clusterLimit c d => cluster c d (fun k => { k with limit := d })
  | .sampling p si => if si = 0 || (4096 ≤ si && si ≤ 2 ^ 24) then s.mapPart p (fun q => { q with sampling := si }) else s
  | .counter p i code => if i < 16 then s.mapPart p (fun q => { q with codes := aset q.codes i code }) else s
  | .counterBlock p pa => s.mapPart p (fun q => { q with blockPa := pa, snapMp := s.mp })
  | .ring r base n ctl =>
    if r ≤ 8 && 6 ≤ n && n ≤ 20 then { s with rings := aset s.rings r ⟨base, n, ctl, 0⟩ } else s
  | .ringHead r head => match afind s.rings r with
    | some q => s.memWrite (q.ctl + 8) (leBytes 8 head.toNat)
    | none => s
  | .inbound i base size => if i < 16 then { s with inbound := aset s.inbound i (base, size) } else s
  | .hdm i base size =>
    if s.ctxs.any (fun p => anyMeet (s.ownSpans [(base, size)]) (s.unshared p.2)) then s else { s with hdm := aset s.hdm i (base, size) }
  | .group cols rows m => if (cols, rows, m) = s.cabledGroup then { s with group := (cols, rows, m) } else s
  | .restartRead => s.answer s.restartBytes
  | .restartItem c i => s.answer (leBytes 32 (s.restartItem c i))
  | .bar0 o v => s.bar0Write o v
  | .bar0Read o n => s.answer ((List.range n).flatMap (fun i => leBytes 4 (s.bar0Word (o + 4 * i)).toNat))

end Sys2Proof.Machine
end

