-- ==== Sys2Proof/Machine/ExecSteps.lean ====
section
/-! DEFINITION. The meanings of the steps that tiles, vaults, Shuttles and barriers take beside their bundles: one definition a row. -/
namespace Sys2Proof.Machine

/-- BUNDLE_ISSUE: A tile issues one bundle, or one repetition of it, in an sc; all its operations read their sources
before any write lands (R41) -/
def execBundleIssue (tile : Nat) (s : State) : Host.Outcome State Fault Refusal := act (fun s => s.bundleIssue tile) s
/-- EXPOSED_RESULT_LANDS: The register result of an earlier operation lands at its fixed latency, and its flags are
ORed into FLAGS (R253) -/
def execExposedResultLands (tile : Nat) (s : State) : Host.Outcome State Fault Refusal :=
  act (fun s => s.land tile .exposed) s
/-- OVL_LOAD_COMPLETE: An overlay load ends: the page becomes resident or the load faults, and the barrier is
counted (R360) -/
def execOvlLoadComplete (tile : Nat) (s : State) : Host.Outcome State Fault Refusal :=
  act (fun s => s.ovlComplete tile) s
/-- LDWB_COMPLETE: A weight-buffer load completes and its half is no longer in use for it (R185) -/
def execLdwbComplete (tile : Nat) (s : State) : Host.Outcome State Fault Refusal := act (fun s => s.land tile .ldwb) s
/-- MMA_PASS1_START: Pass 1 of a matrix operation starts and reads its scale bank (R313) -/
def execMmaPass1Start (tile : Nat) (s : State) : Host.Outcome State Fault Refusal :=
  act (fun s => s.land tile .pass1) s
/-- MMA_RESULT_READY: A matrix operation's result lands in its accumulator and its flags are ORed (R314) -/
def execMmaResultReady (tile : Nat) (s : State) : Host.Outcome State Fault Refusal :=
  act (fun s => s.land tile .ready) s
/-- MSEQ_STEP_START: The next step of an MSEQ starts and reads its A block (R330) -/
def execMseqStepStart (tile : Nat) (s : State) : Host.Outcome State Fault Refusal :=
  act (fun s => s.land tile .step) s
/-- VAULT_LANDING: A vault read lands its decoded column in the scratchpad granule (R105) -/
def execVaultLanding (tile : Nat) (s : State) : Host.Outcome State Fault Refusal :=
  act (fun s => s.land tile .vault) s
/-- WR_SAMPLE: A vault write samples its scratchpad granule and writes the column (R106) -/
def execWrSample (tile : Nat) (s : State) : Host.Outcome State Fault Refusal := act (fun s => s.land tile .sample) s
/-- PRECHARGE_POINT: The precharge point of an RDA or WRA is reached and the bank becomes IDLE (R88) -/
def execPrechargePoint (tile : Nat) (bank : Nat) (s : State) : Host.Outcome State Fault Refusal :=
  act (fun s => Sys2Proof.Machine.prechargePoint tile bank s) s
/-- REFRESH_COMPLETE: A bank's refresh time runs out and the bank becomes IDLE (R104) -/
def execRefreshComplete (tile : Nat) (bank : Nat) (s : State) : Host.Outcome State Fault Refusal :=
  act (fun s => Sys2Proof.Machine.refreshComplete tile bank s) s
/-- DREFL: A bank's REFDUE reaches zero before a refresh and the tile traps (R92) -/
def execDrefl (tile : Nat) (s : State) : Host.Outcome State Fault Refusal := act (fun s => dreflFalls tile s) s
/-- MP_REFRESH_DEADLINE: A bank's refresh deadline in mp expires, forcing a STRETCH or THERM stop and a guard
refresh (R93) -/
def execMpRefreshDeadline (tile : Nat) (bank : Nat) (s : State) : Host.Outcome State Fault Refusal :=
  act (fun s => s.mpDeadline tile bank) s
/-- BAND_CHANGE: A stack's temperature crosses a band boundary and the cluster's band and ceiling change (R90) -/
def execBandChange (cluster : Nat) (celsius : Nat) (s : State) : Host.Outcome State Fault Refusal :=
  act (fun s => (s.bandChange cluster celsius).settleWorkDone) s
/-- REFRESH_GUARD_REFRESH: The refresh guard refreshes a bank whose mp deadline falls due while no program command
can (R98) -/
def execRefreshGuardRefresh (tile : Nat) (bank : Nat) (s : State) : Host.Outcome State Fault Refusal :=
  act (fun s => s.guardRefresh tile bank) s
/-- SIDE_PORT_SERVE: A dynamic scratchpad access is served through the side port once its sides are free (R158) -/
def execSidePortServe (tile : Nat) (id : Nat) (s : State) : Host.Outcome State Fault Refusal :=
  act (fun s => s.serveRow tile id false) s
/-- DYNAMIC_ACCESS_END: An LDR, STR or remote atomic completes or faults and counts into its barrier (R188) -/
def execDynamicAccessEnd (tile : Nat) (id : Nat) (s : State) : Host.Outcome State Fault Refusal :=
  act (fun s => s.endDyn tile id) s
/-- PAGE_WALK_COMPLETE: A table walk completes and the waiting translations proceed or fault (R128) -/
def execPageWalkComplete (die : Nat) (s : State) : Host.Outcome State Fault Refusal :=
  act (fun s => s.walkComplete die) s
/-- REPLICA_COMMIT: A write to a replicated range locks, writes and unlocks every copy of its granule (R123) -/
def execReplicaCommit (tile : Nat) (id : Nat) (s : State) : Host.Outcome State Fault Refusal :=
  act (fun s => s.serveRow tile id true) s
/-- PUBLISH_SWAP: After the shadow writes drain, a publish toggles FSEL and counts into its barrier (R121) -/
def execPublishSwap (ctx : Nat) (s : State) : Host.Outcome State Fault Refusal := act (fun s => s.publishSwap ctx) s
/-- SHUTTLE_BEAT_ISSUE: The Shuttle starts the next beat of a ready copy (R141) -/
def execShuttleBeatIssue (cluster : Nat) (s : State) : Host.Outcome State Fault Refusal :=
  act (fun s => ((s.beatIssue cluster).getD s).settleWorkDone) s
/-- SHUTTLE_BEAT_COMPLETE: A copy beat completes, counting bytes, and may end the copy (R140) -/
def execShuttleBeatComplete (cluster : Nat) (s : State) : Host.Outcome State Fault Refusal :=
  act (fun s => ((s.beatComplete cluster).getD s).settleWorkDone) s
/-- BARRIER_PHASE_COMPLETE: An armed barrier instance meets its expectations and toggles its phase (R172) -/
def execBarrierPhaseComplete (tile : Nat) (bar : Nat) (s : State) : Host.Outcome State Fault Refusal :=
  act (fun s => s.phaseComplete tile bar) s
/-- BARRIER_COMPLETION_SEEN: Every member sees a completed phase in the common sc (R173) -/
def execBarrierCompletionSeen (tile : Nat) (bar : Nat) (s : State) : Host.Outcome State Fault Refusal :=
  act (fun s => s.completionSeen tile bar) s
/-- BARW_RESUME: A waiting tile sees its barrier leave the phase and resumes, merging flags and raising any fault
(R352) -/
def execBarwResume (tile : Nat) (s : State) : Host.Outcome State Fault Refusal := act (fun s => s.barwResume tile) s
/-- WAITA_READ_RETURN: A WAITA read returns, and the tile resumes if the compare holds or reads again (R353) -/
def execWaitaReadReturn (tile : Nat) (s : State) : Host.Outcome State Fault Refusal :=
  act (fun s => s.waitaReturn tile) s
/-- STREAM_VALUE_ARRIVES: A driven stream value is present at the receiving tile for one sc and is discarded if not
tapped (R205) -/
def execStreamValueArrives (tile : Nat) (dir : Dir) (lane : BitVec 4) (data : BitVec 256) (stamp : BitVec 16) (eos : Bool) (s : State) :
    Host.Outcome State Fault Refusal :=
  act (fun s => s.streamArrives tile ⟨0, dir, lane.toNat, data, stamp, eos, false⟩) s

end Sys2Proof.Machine
end

