-- ==== Sys2Proof/Machine/ExecStream.lean ====
section
/-! DEFINITION. The meanings of the stream slot (11_registers_and_streams.md): one definition a row. -/
namespace Sys2Proof.Machine

/-- SDRV: Drives an operand onto stream lanes with the current stamp (R208) -/
def execSdrv (g : NGrp) (o : NOpnd) (s : State) : Host.Outcome State Fault Refusal := settle (issueSdrv g o) s
/-- STAP: Checks and consumes stream values into an operand (R209) -/
def execStap (g : NGrp) (o : NOpnd) (st : Stamp) (s : State) : Host.Outcome State Fault Refusal :=
  settle (issueStap g o st) s
/-- SFWD: Checks stream values and re-drives them unchanged, optionally copying them (R210) -/
def execSfwd (g : NGrp) (o : NOpnd) (st : Stamp) (odir : Dir) (olane : BitVec 4) (s : State) :
    Host.Outcome State Fault Refusal :=
  settle (issueSfwd g o st odir olane) s
/-- SEOS: Drives end-of-stream tokens (R211) -/
def execSeos (g : NGrp) (s : State) : Host.Outcome State Fault Refusal := settle (issueSeos g) s
/-- SRED: Adds an addend to received stream values and re-drives the sums (R212) -/
def execSred (g : NGrp) (o : NOpnd) (st : Stamp) (odir : Dir) (olane : BitVec 4) (rfmt : BitVec 2) (s : State) :
    Host.Outcome State Fault Refusal :=
  settle (issueSred g o st odir olane rfmt) s

end Sys2Proof.Machine
end

