-- ==== Sys2Proof/Machine/ExecSystem.lean ====
section
/-! DEFINITION. The meanings of plots, queues, power, observation, links, the policy core and the host: one definition a row. -/
namespace Sys2Proof.Machine

/-- HOLD_RELEASE: Every hold condition has held and all tiles issue their next bundle at one pulse (R356) -/
def execHoldRelease (plot : Nat) (s : State) : Host.Outcome State Fault Refusal := act (fun s => s.holdRelease plot) s
/-- HOLDTO: A hold timeout expires before the condition held and the plot stops (R356) -/
def execHoldto (tile : Nat) (s : State) : Host.Outcome State Fault Refusal := act (fun s => s.holdto tile) s
/-- PLOT_OVERDUE: Real time since the last hold exceeds HOLDMAX and the plot becomes overdue (R405) -/
def execPlotOverdue (plot : Nat) (s : State) : Host.Outcome State Fault Refusal := act (fun s => s.plotOverdue plot) s
/-- PLOT_STOP_ARRIVAL: A plot stop reaches another tile, which takes PSTOP (R439) -/
def execPlotStopArrival (tile : Nat) (s : State) : Host.Outcome State Fault Refusal :=
  act (fun s => s.stopArrival tile) s
/-- PREEMPT_REQUEST: The Loom requests pre-emption of a plot to make room for a higher-level launch (R417) -/
def execPreemptRequest (plot : Nat) (sub : BitVec 8) (s : State) : Host.Outcome State Fault Refusal :=
  act (fun s => s.requestStop plot ⟨.preempt, sub.toNat, 0, 0⟩) s
/-- FORCED_STOP: Every tile of a plot stops at a common bundle boundary and its image is saved (R449) -/
def execForcedStop (plot : Nat) (s : State) : Host.Outcome State Fault Refusal := act (fun s => (s.forcedStop plot).startHeld) s
/-- PLOT_RESUME: A pre-empted plot's images are restored on a new rectangle and it re-enters its hold (R446) -/
def execPlotResume (plot : Nat) (x0 : Nat) (y0 : Nat) (s : State) : Host.Outcome State Fault Refusal :=
  act (fun s => s.plotResume plot x0 y0) s
/-- RETENTION_ENTRY: The policy core places a cluster with all plots paused into retention (R453) -/
def execRetentionEntry (cluster : Nat) (s : State) : Host.Outcome State Fault Refusal :=
  act (fun s => s.retentionEntry cluster) s
/-- PLOT_ARMING: A free rectangle and suiting variant are found and every tile of the plot is armed (R402) -/
def execPlotArming (plot : Nat) (x0 : Nat) (y0 : Nat) (s : State) : Host.Outcome State Fault Refusal :=
  act (fun s => s.plotArming plot x0 y0) s
/-- START_PULSE: The chosen master pulse starts the plot's SCYC; tiles not ready raise SLIP 0xA5 (R402) -/
def execStartPulse (plot : Nat) (s : State) : Host.Outcome State Fault Refusal := act (fun s => (s.startCounted plot).settleWorkDone) s
/-- TILE_FREED: A tile that has issued END empties its engine queues and is freed; the last frees the plot (R43) -/
def execTileFreed (tile : Nat) (s : State) : Host.Outcome State Fault Refusal :=
  act (fun s => (s.tileFreed tile).settleWorkDone) s
/-- DOORBELL: A write to a queue's doorbell makes ring words up to the new tail ready (R484) -/
def execDoorbell (q : Nat) (v : BitVec 32) (s : State) : Host.Outcome State Fault Refusal :=
  act (fun s => s.doorbell q v) s
/-- RING_READ: The Loom reads ready packet words and writes the head index (R409) -/
def execRingRead (q : Nat) (s : State) : Host.Outcome State Fault Refusal := act (fun s => s.ringRead q) s
/-- QUEUE_ENABLE: ENABLE changes from 0 to 1 and the Loom reads the queue descriptor (R408) -/
def execQueueEnable (q : Nat) (d : BitVec 512) (s : State) : Host.Outcome State Fault Refusal :=
  act (fun s => s.queueEnable q d) s
/-- LAUNCH: A packet that admits a timetable for placement (R411) -/
def execLaunch (p : Pkt) (desc : BitVec 64) (rec : BitVec 64) (s : State) : Host.Outcome State Fault Refusal :=
  act (fun s => s.launch p desc rec) s
/-- COPY: A packet that runs a copy on the Loom's copy channel (R411) -/
def execCopy (p : Pkt) (desc : BitVec 64) (rec : BitVec 64) (s : State) : Host.Outcome State Fault Refusal :=
  act (fun s => (s.copyPkt p desc rec).settleWorkDone) s
/-- SIGNAL: A packet that writes or adds to a word with a system-scope release (R411) -/
def execSignal (p : Pkt) (va : BitVec 64) (val : BitVec 64) (w64 : Bool) (add : Bool) (s : State) :
    Host.Outcome State Fault Refusal :=
  act (fun s => s.signal p va val w64 add) s
/-- WAIT: A packet that holds the queue until a word compare holds (R411) -/
def execWait (p : Pkt) (va : BitVec 64) (val : BitVec 64) (w64 : Bool) (cmp : Cmp) (timeout : BitVec 32) (s : State) :
    Host.Outcome State Fault Refusal :=
  act (fun s => s.waitPkt p va val w64 cmp timeout) s
/-- WAIT_SATISFIED: A WAIT packet's read meets its compare and later packets may start (R411) -/
def execWaitSatisfied (q : Nat) (s : State) : Host.Outcome State Fault Refusal := act (fun s => s.waitSatisfied q) s
/-- WAIT_TIMEOUT: A WAIT packet's timeout expires and the queue stops with error 0x18 (R415) -/
def execWaitTimeout (q : Nat) (s : State) : Host.Outcome State Fault Refusal := act (fun s => s.waitTimeout q) s
/-- CALLIB: A packet that runs an indirect buffer of packets (R413) -/
def execCallib (p : Pkt) (va : BitVec 64) (len : BitVec 32) (s : State) : Host.Outcome State Fault Refusal :=
  act (fun s => s.callib p va len) s
/-- RETIB: A packet that returns from an indirect buffer (R413) -/
def execRetib (p : Pkt) (s : State) : Host.Outcome State Fault Refusal := act (fun s => s.retib p) s
/-- GRAPH: A packet that starts walking a graph of nodes (R418) -/
def execGraph (p : Pkt) (base : BitVec 64) (cap : BitVec 16) (count : BitVec 16) (rec : BitVec 64) (s : State) :
    Host.Outcome State Fault Refusal :=
  act (fun s => s.graphPkt p base cap count rec) s
/-- FENCEK: A packet that completes once every earlier packet of the queue has completed (R412) -/
def execFencek (p : Pkt) (s : State) : Host.Outcome State Fault Refusal := act (fun s => s.fencek p) s
/-- MARKK: A packet that writes one selvage record (R411) -/
def execMarkk (p : Pkt) (tag : BitVec 32) (s : State) : Host.Outcome State Fault Refusal :=
  act (fun s => s.markk p tag) s
/-- GRAPH_NODE_COMPLETE: A graph node completes, decrementing its successors' counts, and a COND may re-arm nodes
(R418) -/
def execGraphNodeComplete (q : Nat) (node : Nat) (s : State) : Host.Outcome State Fault Refusal :=
  act (fun s => s.nodeComplete q node) s
/-- TIMED_NODE_OFFSET: A TIMED node's offset is reached and it launches or raises error 0x17 (R418) -/
def execTimedNodeOffset (q : Nat) (node : Nat) (s : State) : Host.Outcome State Fault Refusal :=
  act (fun s => s.timedNode q node) s
/-- QUEUE_PATIENCE_EXPIRY: A ready queue unserved for PATIENCE µs rises one level (R416) -/
def execQueuePatienceExpiry (q : Nat) (s : State) : Host.Outcome State Fault Refusal := act (fun s => s.patience q) s
/-- IRQ_AGE_EXPIRY: The oldest uncovered interrupt request reaches AGETH and an MSI-X message is sent (R419) -/
def execIrqAgeExpiry (q : Nat) (s : State) : Host.Outcome State Fault Refusal := act (fun s => s.irqAge q) s
/-- QUEUE_RESET: The policy core disables a queue, cancels unstarted work and asks its plots to stop (R420) -/
def execQueueReset (q : Nat) (s : State) : Host.Outcome State Fault Refusal := act (fun s => s.queueReset q) s
/-- QUEUE_RESET_COMPLETE: The queue's work has stopped and the reset completion record is written (R420) -/
def execQueueResetComplete (q : Nat) (s : State) : Host.Outcome State Fault Refusal :=
  act (fun s => s.resetComplete q) s
/-- PATTERN_CHANGE: The arbiter changes a cluster's twill pattern at a frame boundary (R456) -/
def execPatternChange (cluster : Nat) (allot : Nat) (s : State) : Host.Outcome State Fault Refusal :=
  act (fun s => s.patternChange cluster allot) s
/-- SPLIT_CHANGE: The arbiter raises or lowers a plot's split level (R458) -/
def execSplitChange (plot : Nat) (level : BitVec 2) (s : State) : Host.Outcome State Fault Refusal :=
  act (fun s => s.splitChange plot level) s
/-- DROOP: A droop detector fires and every cluster of its die drops to its floor pattern (R461) -/
def execDroop (die : Nat) (s : State) : Host.Outcome State Fault Refusal := act (fun s => s.droop die) s
/-- DROOP_FLOOR_END: The floor has held its minimum time and the arbiter restores ceilings (R461) -/
def execDroopFloorEnd (die : Nat) (s : State) : Host.Outcome State Fault Refusal := act (fun s => s.droopEnd die) s
/-- LEASE_GRANT: The arbiter grants a pending lease and the boost pattern takes effect (R463) -/
def execLeaseGrant (plot : Nat) (s : State) : Host.Outcome State Fault Refusal := act (fun s => s.leaseGrant plot) s
/-- LEASE_DENY: The arbiter denies a pending lease (R463) -/
def execLeaseDeny (plot : Nat) (reason : BitVec 4) (s : State) : Host.Outcome State Fault Refusal :=
  act (fun s => s.leaseDeny plot reason) s
/-- LEASE_DUR_EXPIRY: A granted lease's duration elapses and it ends (R463) -/
def execLeaseDurExpiry (plot : Nat) (s : State) : Host.Outcome State Fault Refusal := act (fun s => s.leaseDur plot) s
/-- LEASE_CAP_REACHED: The context's energy since a grant reaches CAP and the lease ends (R463) -/
def execLeaseCapReached (plot : Nat) (s : State) : Host.Outcome State Fault Refusal :=
  act (fun s => s.leaseCap plot) s
/-- SUPPLY_LOSS: The supply is lost: leases end, power is capped and PFAIL is sent (R471) -/
def execSupplyLoss (s : State) : Host.Outcome State Fault Refusal := act (fun s => s.supplyLoss) s
/-- PFAIL_ARRIVAL: PFAIL reaches a plot, which stops at once if paused or at its next hold (R471) -/
def execPfailArrival (plot : Nat) (s : State) : Host.Outcome State Fault Refusal :=
  act (fun s => s.pfailArrival plot) s
/-- PFAIL_HOLD_TIMEOUT: A plot has not reached a hold 200 µs after PFAIL and takes a forced stop (R471) -/
def execPfailHoldTimeout (plot : Nat) (s : State) : Host.Outcome State Fault Refusal :=
  act (fun s => s.pfailTimeout plot) s
/-- KEEP_STORE_SAVE: Once every plot has stopped, must-save chunks are written and sealed in the keep store (R471) -/
def execKeepStoreSave (s : State) : Host.Outcome State Fault Refusal := act (fun s => s.keepSave) s
/-- PC_SAMPLE: A sampling pulse writes a PC sample record for the tile (R479) -/
def execPcSample (tile : Nat) (s : State) : Host.Outcome State Fault Refusal := act (fun s => s.pcSample tile) s
/-- COUNTER_SNAPSHOT: Every 10 µs the partition counters are written to their block (R481) -/
def execCounterSnapshot (part : Nat) (s : State) : Host.Outcome State Fault Refusal :=
  act (fun s => s.counterSnapshot part) s
/-- LINK_TRAINING: The policy core trains a Sprintum link and sets its LINKSTAT (R486) -/
def execLinkTraining (link : Nat) (peerMod : Nat) (peerLink : Nat) (flightPs : Nat) (rate : Nat) (s : State) :
    Host.Outcome State Fault Refusal :=
  act (fun s => s.linkTraining link peerMod peerLink flightPs rate) s
/-- LINK_LOSS: A link leaves STATE 2 or loses STREAM and every plot spanning it stops whole (R490) -/
def execLinkLoss (drop : LinkDrop) (s : State) : Host.Outcome State Fault Refusal :=
  act (fun s => match drop with
    | .down link => s.linkLoss link false
    | .lane link => s.linkLoss link true) s
/-- MODULE_START: A start runs the boot steps in order, journalling each and setting BOOTSTAT (R494) -/
def execModuleStart (run : StartRun) (s : State) : Host.Outcome State Fault Refusal := .next (s.moduleStart run)
/-- SPDM_REQUEST: The module answers an SPDM request with measurements under both signatures (R491) -/
def execSpdmRequest (index : Nat) (s : State) : Host.Outcome State Fault Refusal :=
  act (fun s => s.spdmRequest index) s
/-- MANIFEST_READ: A mailbox read returns manifest entries with the signed log digest (R493) -/
def execManifestRead (first : Nat) (s : State) : Host.Outcome State Fault Refusal :=
  act (fun s => s.manifestRead first) s
/-- RANGE_ENTRY_INSTALL: The policy core installs a range entry or refuses it (R116) -/
def execRangeEntryInstall (ctx : Nat) (i : Nat) (e : BitVec 256) (s : State) : Host.Outcome State Fault Refusal :=
  act (fun s => s.rangeInstall ctx i e) s
/-- TRANSLATION_INVALIDATE: The policy core invalidates cached translations in every Shuttle (R129) -/
def execTranslationInvalidate (ctx : Nat) (s : State) : Host.Outcome State Fault Refusal :=
  act (fun s => s.invalidate ctx) s
/-- PAGE_MIGRATION: The policy core locks a hot page and starts copying it to a cooler service stratum (R127) -/
def execPageMigration (ctx : Nat) (va : BitVec 64) (newPa : Nat) (s : State) : Host.Outcome State Fault Refusal :=
  act (fun s => s.pageMigration ctx va newPa) s
/-- PAGE_MIGRATION_COPY_DONE: The page copy finishes; the leaf is remapped and held accesses proceed (R127) -/
def execPageMigrationCopyDone (ctx : Nat) (s : State) : Host.Outcome State Fault Refusal :=
  act (fun s => (s.migrationDone ctx).startHeld) s
/-- SERVICE_MARKING_CHANGE: The policy core changes which strata of a tile are service strata (R82) -/
def execServiceMarkingChange (tile : Nat) (strata : BitVec 4) (s : State) : Host.Outcome State Fault Refusal :=
  act (fun s => s.serviceMarking tile strata) s
/-- HOST_CXL_MEM_READ: The host reads device memory through CXL.mem (R387) -/
def execHostCxlMemRead (pa : Nat) (len : Nat) (s : State) : Host.Outcome State Fault Refusal :=
  act (fun s => s.hostRead pa len) s
/-- HOST_CXL_MEM_WRITE: The host writes device memory through CXL.mem and receives completion once visible (R387) -/
def execHostCxlMemWrite (pa : Nat) (bytes : List Byte) (s : State) : Host.Outcome State Fault Refusal :=
  act (fun s => s.hostWrite pa bytes) s
/-- PEER_ACCESS_ARRIVAL: An access from a peer module arrives and is accepted or refused by the inbound windows
(R125) -/
def execPeerAccessArrival (pa : Nat) (acc : PeerAcc) (s : State) : Host.Outcome State Fault Refusal :=
  act (fun s => s.peerAccess pa acc) s
/-- REGISTER_WRITE: A write to a register that has no row of its own (R11) -/
def execRegisterWrite (r : RegW) (s : State) : Host.Outcome State Fault Refusal := act (fun s => s.regWrite r) s
/-- STATIC_PORT_ACCESS: A static scratchpad access of an earlier operation reaches its port sc: the write or read of
a store, gather, scatter, direction load or store, or weight-buffer load takes place, with its claim and error
checks (R153) -/
def execStaticPortAccess (tile : Nat) (s : State) : Host.Outcome State Fault Refusal :=
  act (fun s => s.land tile .port) s
/-- RETENTION_EXIT: The policy core brings a cluster out of retention, checks the parity computed at entry, and
either lets its paused plots resume or makes every tile of an affected plot take RLOST (R453) -/
def execRetentionExit (cluster : Nat) (parityOk : Bool) (s : State) : Host.Outcome State Fault Refusal :=
  act (fun s => (s.retentionExit cluster parityOk).settleWorkDone) s

end Sys2Proof.Machine
end

