-- ==== Sys2Proof/Machine/ExecVault.lean ====
section
/-! DEFINITION. The meanings of the vault slots (05_vault_commands.md): one definition a row. -/
namespace Sys2Proof.Machine

/-- ACT: Opens a row of a vault bank (R104) -/
def execAct (st : BitVec 2) (bk : BitVec 4) (row : BitVec 12) (_step : BitVec 6) (s : State) :
    Host.Outcome State Fault Refusal :=
  settle (issueAct st bk row) s
/-- RD: Reads a vault column into a scratchpad granule 56 sc later (R105) -/
def execRd (f : DCol) (s : State) : Host.Outcome State Fault Refusal := settle (issueRd f) s
/-- WR: Writes a scratchpad granule into a vault column (R106) -/
def execWr (f : DCol) (s : State) : Host.Outcome State Fault Refusal := settle (issueWr f) s
/-- RDA: Reads a vault column and closes the bank by auto-precharge (R105) -/
def execRda (f : DCol) (s : State) : Host.Outcome State Fault Refusal := settle (issueRda f) s
/-- WRA: Writes a vault column and closes the bank by auto-precharge (R106) -/
def execWra (f : DCol) (s : State) : Host.Outcome State Fault Refusal := settle (issueWra f) s
/-- PRE: Closes the open row of a bank (R104) -/
def execPre (st : BitVec 2) (bk : BitVec 4) (_step : BitVec 6) (s : State) : Host.Outcome State Fault Refusal :=
  settle (issuePre st bk) s
/-- PREA: Closes every open row of a stratum (R104) -/
def execPrea (st : BitVec 2) (s : State) : Host.Outcome State Fault Refusal := settle (issuePrea st) s
/-- REF: Refreshes every bank of a stratum (R104) -/
def execRef (st : BitVec 2) (s : State) : Host.Outcome State Fault Refusal := settle (issueRef st) s
/-- REFB: Refreshes one bank (R104) -/
def execRefb (st : BitVec 2) (bk : BitVec 4) (_step : BitVec 6) (s : State) : Host.Outcome State Fault Refusal :=
  settle (issueRefb st bk) s

end Sys2Proof.Machine
end

