-- ==== Sys2Proof/Machine/ExecVector.lean ====
section
/-! DEFINITION. The meanings of the vector slots (14_vector_instructions.md): one definition a row. -/
namespace Sys2Proof.Machine

/-- VADD: Elementwise vector addition (R261) -/
def execVadd (f : VArith) (s : State) : Host.Outcome State Fault Refusal := settle (issueVadd f) s
/-- VSUB: Elementwise vector subtraction (R261) -/
def execVsub (f : VArith) (s : State) : Host.Outcome State Fault Refusal := settle (issueVsub f) s
/-- VMUL: Elementwise vector multiplication (R261) -/
def execVmul (f : VArith) (s : State) : Host.Outcome State Fault Refusal := settle (issueVmul f) s
/-- VFMA: Elementwise fused multiply-add into the destination (R261) -/
def execVfma (f : VArith) (s : State) : Host.Outcome State Fault Refusal := settle (issueVfma f) s
/-- VMIN: Elementwise minimum (R261) -/
def execVmin (f : VBin) (s : State) : Host.Outcome State Fault Refusal := settle (issueVmin f) s
/-- VMAX: Elementwise maximum (R261) -/
def execVmax (f : VBin) (s : State) : Host.Outcome State Fault Refusal := settle (issueVmax f) s
/-- VABS: Elementwise absolute value (R261) -/
def execVabs (f : VUn) (s : State) : Host.Outcome State Fault Refusal := settle (issueVabs f) s
/-- VNEG: Elementwise negation (R261) -/
def execVneg (f : VUn) (s : State) : Host.Outcome State Fault Refusal := settle (issueVneg f) s
/-- VAND: Cellwise AND (R262) -/
def execVand (f : VBin) (s : State) : Host.Outcome State Fault Refusal := settle (issueVand f) s
/-- VOR: Cellwise OR (R262) -/
def execVor (f : VBin) (s : State) : Host.Outcome State Fault Refusal := settle (issueVor f) s
/-- VXOR: Cellwise XOR (R262) -/
def execVxor (f : VBin) (s : State) : Host.Outcome State Fault Refusal := settle (issueVxor f) s
/-- VSHL: Elementwise shift left (R262) -/
def execVshl (f : VBin) (s : State) : Host.Outcome State Fault Refusal := settle (issueVshl f) s
/-- VSHR: Elementwise logical shift right (R262) -/
def execVshr (f : VBin) (s : State) : Host.Outcome State Fault Refusal := settle (issueVshr f) s
/-- VSAR: Elementwise arithmetic shift right (R262) -/
def execVsar (f : VBin) (s : State) : Host.Outcome State Fault Refusal := settle (issueVsar f) s
/-- VSEL: Selects A or B per element by the destination mask (R262) -/
def execVsel (f : VBin) (s : State) : Host.Outcome State Fault Refusal := settle (issueVsel f) s
/-- VCMPEQ: Elementwise equality compare to all-ones or zero (R262) -/
def execVcmpeq (f : VBin) (s : State) : Host.Outcome State Fault Refusal := settle (issueVcmpeq f) s
/-- VCMPLT: Elementwise less-than compare (R262) -/
def execVcmplt (f : VBin) (s : State) : Host.Outcome State Fault Refusal := settle (issueVcmplt f) s
/-- VCMPLE: Elementwise less-or-equal compare (R262) -/
def execVcmple (f : VBin) (s : State) : Host.Outcome State Fault Refusal := settle (issueVcmple f) s
/-- VMOV: Copies cells between views (R262) -/
def execVmov (fmt : Fmt) (dst : View) (a : View) (_rstep : BitVec 3) (s : State) : Host.Outcome State Fault Refusal :=
  settle (issueVmov fmt dst a) s
/-- VBCS: Broadcasts a scalar into every element (R262) -/
def execVbcs (fmt : Fmt) (dst : View) (a : BitVec 6) (_rstep : BitVec 3) (s : State) :
    Host.Outcome State Fault Refusal :=
  settle (issueVbcs fmt dst a) s
/-- VIOTA: Writes an arithmetic sequence over the elements (R262) -/
def execViota (fmt : Fmt) (dst : View) (a : BitVec 6) (b : BitVec 6) (_rstep : BitVec 3) (s : State) :
    Host.Outcome State Fault Refusal :=
  settle (issueViota fmt dst a b) s
/-- VMADW: Multiplies narrow elements and adds into 32-bit cells (R263) -/
def execVmadw (fmt : Fmt) (sat : Bool) (sel : BitVec 3) (dst : View) (a : View) (b : View) (_rstep : BitVec 3) (s : State) :
    Host.Outcome State Fault Refusal :=
  settle (issueVmadw fmt sat sel dst a b) s
/-- VMULH: High half of the elementwise integer product (R261) -/
def execVmulh (f : VBin) (s : State) : Host.Outcome State Fault Refusal := settle (issueVmulh f) s
/-- VCVT: Converts elements between formats, narrowing or widening by part (R265) -/
def execVcvt (f : VCvt) (s : State) : Host.Outcome State Fault Refusal := settle (issueVcvt f) s
/-- VCVTEF: Narrows FP32 elements and writes the error-feedback residuals back to the source row (R266) -/
def execVcvtef (f : VCvt) (s : State) : Host.Outcome State Fault Refusal := settle (issueVcvtef f) s
/-- VSACC: Adds an E8M0-scaled FP32 row into the destination with one rounding (R267) -/
def execVsacc (fmt : Fmt) (rm : Rm) (sat : Bool) (uni : Bool) (dst : View) (a : View) (b : View) (_rstep : BitVec 3) (s : State) :
    Host.Outcome State Fault Refusal :=
  settle (issueVsacc fmt rm sat uni dst a b) s
/-- VRNG: Writes 64 Philox draws and advances the block counter (R270) -/
def execVrng (fmt : Fmt) (dst : View) (_rstep : BitVec 3) (s : State) : Host.Outcome State Fault Refusal :=
  settle (issueVrng fmt dst) s
/-- VROTR: Rotates the elements of a row (R273) -/
def execVrotr (f : VShift) (s : State) : Host.Outcome State Fault Refusal := settle (issueVrotr f) s
/-- VROTC: Rotates the rows of a panel (R274) -/
def execVrotc (f : VShift) (s : State) : Host.Outcome State Fault Refusal := settle (issueVrotc f) s
/-- VBCR: Broadcasts one element of a row to the whole row (R273) -/
def execVbcr (f : VShift) (s : State) : Host.Outcome State Fault Refusal := settle (issueVbcr f) s
/-- VBCC: Broadcasts one row of a panel to all of its rows (R274) -/
def execVbcc (f : VShift) (s : State) : Host.Outcome State Fault Refusal := settle (issueVbcc f) s
/-- VREDR: Reduces the elements of a row by a fixed tree (R275) -/
def execVredr (f : VRed) (s : State) : Host.Outcome State Fault Refusal := settle (issueVredr f) s
/-- VREDC: Reduces each column of a panel by a fixed tree (R275) -/
def execVredc (f : VRed) (s : State) : Host.Outcome State Fault Refusal := settle (issueVredc f) s
/-- VSHFR: Funnel-shifts the elements of two consecutive rows (R273) -/
def execVshfr (f : VShift) (s : State) : Host.Outcome State Fault Refusal := settle (issueVshfr f) s
/-- VSHFC: Funnel-shifts the rows of two consecutive panels (R274) -/
def execVshfc (f : VShift) (s : State) : Host.Outcome State Fault Refusal := settle (issueVshfc f) s
/-- VTRN: Transposes 16 × 16 blocks of a panel (R274) -/
def execVtrn (fmt : Fmt) (dst : View) (a : View) (_rstep : BitVec 3) (s : State) : Host.Outcome State Fault Refusal :=
  settle (issueVtrn fmt dst a) s
/-- VPART: Splits lane indices by a flag row into two index rows and two counts (R276) -/
def execVpart (fmt : Fmt) (dst : View) (a : View) (b : BitVec 6) (_rstep : BitVec 3) (s : State) :
    Host.Outcome State Fault Refusal :=
  settle (issueVpart fmt dst a b) s
/-- VCNT: Counts nonzero elements of a row into a scalar (R277) -/
def execVcnt (fmt : Fmt) (d : BitVec 6) (a : View) (_rstep : BitVec 3) (s : State) :
    Host.Outcome State Fault Refusal :=
  settle (issueVcnt fmt d a) s
/-- VARGM: Writes the value and index of the greatest or least cell into a scalar (R278) -/
def execVargm (fmt : Fmt) (mn : Bool) (d : BitVec 6) (a : View) (_rstep : BitVec 3) (s : State) :
    Host.Outcome State Fault Refusal :=
  settle (issueVargm fmt mn d a) s

end Sys2Proof.Machine
end

