-- ==== Sys2Proof/Machine/Dispatch.lean ====
section
/-! DEFINITION. One arm for every instruction, each a call of its meaning. -/
namespace Sys2Proof.Machine

def exec (i : Instr) (s : State) : Host.Outcome State Fault Refusal :=
  match i with
  | .br off => Sys2Proof.Machine.execBr off s
  | .brp p neg off => Sys2Proof.Machine.execBrp p neg off s
  | .call off => Sys2Proof.Machine.execCall off s
  | .ret => Sys2Proof.Machine.execRet s
  | .jmps a link => Sys2Proof.Machine.execJmps a link s
  | .loop cnt fin => Sys2Proof.Machine.execLoop cnt fin s
  | .loopv a fin => Sys2Proof.Machine.execLoopv a fin s
  | .loops dir lane ex age fin => Sys2Proof.Machine.execLoops dir lane ex age fin s
  | .leave => Sys2Proof.Machine.execLeave s
  | .walkn p w sc => Sys2Proof.Machine.execWalkn p w sc s
  | .align target => Sys2Proof.Machine.execAlign target s
  | .hold im => Sys2Proof.Machine.execHold im s
  | .waita a b cmp w64 hm h off => Sys2Proof.Machine.execWaita a b cmp w64 hm h off s
  | .bari bar sc arr bedw bedh b => Sys2Proof.Machine.execBari bar sc arr bedw bedh b s
  | .bara bar => Sys2Proof.Machine.execBara bar s
  | .barw hm ph h bar => Sys2Proof.Machine.execBarw hm ph h bar s
  | .fence sc => Sys2Proof.Machine.execFence sc s
  | .trap code => Sys2Proof.Machine.execTrap code s
  | .sysc code => Sys2Proof.Machine.execSysc code s
  | .eret => Sys2Proof.Machine.execEret s
  | .lease pulses dur cap => Sys2Proof.Machine.execLease pulses dur cap s
  | .mark a tag => Sys2Proof.Machine.execMark a tag s
  | .savept item a => Sys2Proof.Machine.execSavept item a s
  | .ovl page frame bar => Sys2Proof.Machine.execOvl page frame bar s
  | .add d a b => Sys2Proof.Machine.execAdd d a b s
  | .sub d a b => Sys2Proof.Machine.execSub d a b s
  | .mul d a b => Sys2Proof.Machine.execMul d a b s
  | .mulh d a b => Sys2Proof.Machine.execMulh d a b s
  | .mulhu d a b => Sys2Proof.Machine.execMulhu d a b s
  | .and d a b => Sys2Proof.Machine.execAnd d a b s
  | .or d a b => Sys2Proof.Machine.execOr d a b s
  | .xor d a b => Sys2Proof.Machine.execXor d a b s
  | .andn d a b => Sys2Proof.Machine.execAndn d a b s
  | .shl d a b => Sys2Proof.Machine.execShl d a b s
  | .shr d a b => Sys2Proof.Machine.execShr d a b s
  | .sar d a b => Sys2Proof.Machine.execSar d a b s
  | .rol d a b => Sys2Proof.Machine.execRol d a b s
  | .min d a b => Sys2Proof.Machine.execMin d a b s
  | .max d a b => Sys2Proof.Machine.execMax d a b s
  | .minu d a b => Sys2Proof.Machine.execMinu d a b s
  | .maxu d a b => Sys2Proof.Machine.execMaxu d a b s
  | .clz d a => Sys2Proof.Machine.execClz d a s
  | .popc d a => Sys2Proof.Machine.execPopc d a s
  | .extb d a b w => Sys2Proof.Machine.execExtb d a b w s
  | .insb d a b w => Sys2Proof.Machine.execInsb d a b w s
  | .sel d a b p => Sys2Proof.Machine.execSel d a b p s
  | .addi d a im => Sys2Proof.Machine.execAddi d a im s
  | .andi d a im => Sys2Proof.Machine.execAndi d a im s
  | .ori d a im => Sys2Proof.Machine.execOri d a im s
  | .xori d a im => Sys2Proof.Machine.execXori d a im s
  | .shli d a h => Sys2Proof.Machine.execShli d a h s
  | .shri d a h => Sys2Proof.Machine.execShri d a h s
  | .sari d a h => Sys2Proof.Machine.execSari d a h s
  | .li d im => Sys2Proof.Machine.execLi d im s
  | .lih d im => Sys2Proof.Machine.execLih d im s
  | .cmpeq d a b => Sys2Proof.Machine.execCmpeq d a b s
  | .cmpne d a b => Sys2Proof.Machine.execCmpne d a b s
  | .cmplt d a b => Sys2Proof.Machine.execCmplt d a b s
  | .cmple d a b => Sys2Proof.Machine.execCmple d a b s
  | .cmpltu d a b => Sys2Proof.Machine.execCmpltu d a b s
  | .cmpleu d a b => Sys2Proof.Machine.execCmpleu d a b s
  | .cmpeqi d a im => Sys2Proof.Machine.execCmpeqi d a im s
  | .cmplti d a im => Sys2Proof.Machine.execCmplti d a im s
  | .pand d a b => Sys2Proof.Machine.execPand d a b s
  | .por d a b => Sys2Proof.Machine.execPor d a b s
  | .pxor d a b => Sys2Proof.Machine.execPxor d a b s
  | .pnot d a => Sys2Proof.Machine.execPnot d a s
  | .movs d id => Sys2Proof.Machine.execMovs d id s
  | .movt a id => Sys2Proof.Machine.execMovt a id s
  | .movp a b => Sys2Proof.Machine.execMovp a b s
  | .movps d => Sys2Proof.Machine.execMovps d s
  | .fadd d a b rm => Sys2Proof.Machine.execFadd d a b rm s
  | .fsub d a b rm => Sys2Proof.Machine.execFsub d a b rm s
  | .fmul d a b rm => Sys2Proof.Machine.execFmul d a b rm s
  | .ffma d a b x rm => Sys2Proof.Machine.execFfma d a b x rm s
  | .fcmplt d a b => Sys2Proof.Machine.execFcmplt d a b s
  | .fcmpeq d a b => Sys2Proof.Machine.execFcmpeq d a b s
  | .fcvti d a w64 uns sat rm => Sys2Proof.Machine.execFcvti d a w64 uns sat rm s
  | .fcvtf d a w64 uns rm => Sys2Proof.Machine.execFcvtf d a w64 uns rm s
  | .vadd f => Sys2Proof.Machine.execVadd f s
  | .vsub f => Sys2Proof.Machine.execVsub f s
  | .vmul f => Sys2Proof.Machine.execVmul f s
  | .vfma f => Sys2Proof.Machine.execVfma f s
  | .vmin f => Sys2Proof.Machine.execVmin f s
  | .vmax f => Sys2Proof.Machine.execVmax f s
  | .vabs f => Sys2Proof.Machine.execVabs f s
  | .vneg f => Sys2Proof.Machine.execVneg f s
  | .vand f => Sys2Proof.Machine.execVand f s
  | .vor f => Sys2Proof.Machine.execVor f s
  | .vxor f => Sys2Proof.Machine.execVxor f s
  | .vshl f => Sys2Proof.Machine.execVshl f s
  | .vshr f => Sys2Proof.Machine.execVshr f s
  | .vsar f => Sys2Proof.Machine.execVsar f s
  | .vsel f => Sys2Proof.Machine.execVsel f s
  | .vcmpeq f => Sys2Proof.Machine.execVcmpeq f s
  | .vcmplt f => Sys2Proof.Machine.execVcmplt f s
  | .vcmple f => Sys2Proof.Machine.execVcmple f s
  | .vmov fmt dst a rstep => Sys2Proof.Machine.execVmov fmt dst a rstep s
  | .vbcs fmt dst a rstep => Sys2Proof.Machine.execVbcs fmt dst a rstep s
  | .viota fmt dst a b rstep => Sys2Proof.Machine.execViota fmt dst a b rstep s
  | .vmadw fmt sat sel dst a b rstep => Sys2Proof.Machine.execVmadw fmt sat sel dst a b rstep s
  | .vmulh f => Sys2Proof.Machine.execVmulh f s
  | .vcvt f => Sys2Proof.Machine.execVcvt f s
  | .vcvtef f => Sys2Proof.Machine.execVcvtef f s
  | .vsacc fmt rm sat uni dst a b rstep => Sys2Proof.Machine.execVsacc fmt rm sat uni dst a b rstep s
  | .vrng fmt dst rstep => Sys2Proof.Machine.execVrng fmt dst rstep s
  | .vrotr f => Sys2Proof.Machine.execVrotr f s
  | .vrotc f => Sys2Proof.Machine.execVrotc f s
  | .vbcr f => Sys2Proof.Machine.execVbcr f s
  | .vbcc f => Sys2Proof.Machine.execVbcc f s
  | .vredr f => Sys2Proof.Machine.execVredr f s
  | .vredc f => Sys2Proof.Machine.execVredc f s
  | .vshfr f => Sys2Proof.Machine.execVshfr f s
  | .vshfc f => Sys2Proof.Machine.execVshfc f s
  | .vtrn fmt dst a rstep => Sys2Proof.Machine.execVtrn fmt dst a rstep s
  | .vpart fmt dst a b rstep => Sys2Proof.Machine.execVpart fmt dst a b rstep s
  | .vcnt fmt d a rstep => Sys2Proof.Machine.execVcnt fmt d a rstep s
  | .vargm fmt mn d a rstep => Sys2Proof.Machine.execVargm fmt mn d a rstep s
  | .dnorm fmt g d a rstep => Sys2Proof.Machine.execDnorm fmt g d a rstep s
  | .dcvt fmt g dst a rstep => Sys2Proof.Machine.execDcvt fmt g dst a rstep s
  | .ddot f => Sys2Proof.Machine.execDdot f s
  | .ddotn f => Sys2Proof.Machine.execDdotn f s
  | .dscl f => Sys2Proof.Machine.execDscl f s
  | .dneg f => Sys2Proof.Machine.execDneg f s
  | .dadd f => Sys2Proof.Machine.execDadd f s
  | .dsub f => Sys2Proof.Machine.execDsub f s
  | .dmix f => Sys2Proof.Machine.execDmix f s
  | .dproj f => Sys2Proof.Machine.execDproj f s
  | .dsim g dst a b rstep => Sys2Proof.Machine.execDsim g dst a b rstep s
  | .dzt g p a rstep => Sys2Proof.Machine.execDzt g p a rstep s
  | .dmov f => Sys2Proof.Machine.execDmov f s
  | .dgetn f => Sys2Proof.Machine.execDgetn f s
  | .dsetn f => Sys2Proof.Machine.execDsetn f s
  | .frcp f => Sys2Proof.Machine.execFrcp f s
  | .frsq f => Sys2Proof.Machine.execFrsq f s
  | .fsqrt f => Sys2Proof.Machine.execFsqrt f s
  | .fexp2 f => Sys2Proof.Machine.execFexp2 f s
  | .flog2 f => Sys2Proof.Machine.execFlog2 f s
  | .fsin f => Sys2Proof.Machine.execFsin f s
  | .fcos f => Sys2Proof.Machine.execFcos f s
  | .ftanh f => Sys2Proof.Machine.execFtanh f s
  | .fsigm f => Sys2Proof.Machine.execFsigm f s
  | .fdiv fmt rm dst a b rstep => Sys2Proof.Machine.execFdiv fmt rm dst a b rstep s
  | .sdiv f => Sys2Proof.Machine.execSdiv f s
  | .sdivu f => Sys2Proof.Machine.execSdivu f s
  | .srem f => Sys2Proof.Machine.execSrem f s
  | .sremu f => Sys2Proof.Machine.execSremu f s
  | .ldv v m => Sys2Proof.Machine.execLdv v m s
  | .stv v m => Sys2Proof.Machine.execStv v m s
  | .lds sx size sb m => Sys2Proof.Machine.execLds sx size sb m s
  | .sts size sb m => Sys2Proof.Machine.execSts size sb m s
  | .ldg v m => Sys2Proof.Machine.execLdg v m s
  | .stg v m => Sys2Proof.Machine.execStg v m s
  | .ldd g d m => Sys2Proof.Machine.execLdd g d m s
  | .std g d m => Sys2Proof.Machine.execStd g d m s
  | .ldwb h sb sc m => Sys2Proof.Machine.execLdwb h sb sc m s
  | .aadd w64 sb sc m => Sys2Proof.Machine.execAadd w64 sb sc m s
  | .afadd w64 sb sc m => Sys2Proof.Machine.execAfadd w64 sb sc m s
  | .amin w64 sb sc m => Sys2Proof.Machine.execAmin w64 sb sc m s
  | .amax w64 sb sc m => Sys2Proof.Machine.execAmax w64 sb sc m s
  | .aminu w64 sb sc m => Sys2Proof.Machine.execAminu w64 sb sc m s
  | .amaxu w64 sb sc m => Sys2Proof.Machine.execAmaxu w64 sb sc m s
  | .aand w64 sb sc m => Sys2Proof.Machine.execAand w64 sb sc m s
  | .aor w64 sb sc m => Sys2Proof.Machine.execAor w64 sb sc m s
  | .axor w64 sb sc m => Sys2Proof.Machine.execAxor w64 sb sc m s
  | .axch w64 sb sc m => Sys2Proof.Machine.execAxch w64 sb sc m s
  | .acas w64 sb sc m => Sys2Proof.Machine.execAcas w64 sb sc m s
  | .aaddRem w64 sb bar m => Sys2Proof.Machine.execAaddRem w64 sb bar m s
  | .afaddRem w64 sb bar m => Sys2Proof.Machine.execAfaddRem w64 sb bar m s
  | .aminRem w64 sb bar m => Sys2Proof.Machine.execAminRem w64 sb bar m s
  | .amaxRem w64 sb bar m => Sys2Proof.Machine.execAmaxRem w64 sb bar m s
  | .aminuRem w64 sb bar m => Sys2Proof.Machine.execAminuRem w64 sb bar m s
  | .amaxuRem w64 sb bar m => Sys2Proof.Machine.execAmaxuRem w64 sb bar m s
  | .aandRem w64 sb bar m => Sys2Proof.Machine.execAandRem w64 sb bar m s
  | .aorRem w64 sb bar m => Sys2Proof.Machine.execAorRem w64 sb bar m s
  | .axorRem w64 sb bar m => Sys2Proof.Machine.execAxorRem w64 sb bar m s
  | .axchRem w64 sb bar m => Sys2Proof.Machine.execAxchRem w64 sb bar m s
  | .acasRem w64 sb bar m => Sys2Proof.Machine.execAcasRem w64 sb bar m s
  | .ldr acq sb bar m => Sys2Proof.Machine.execLdr acq sb bar m s
  | .str rel sb bar m => Sys2Proof.Machine.execStr rel sb bar m s
  | .shcpy sb m => Sys2Proof.Machine.execShcpy sb m s
  | .publ bar sc m => Sys2Proof.Machine.execPubl bar sc m s
  | .shcan sa rstep => Sys2Proof.Machine.execShcan sa rstep s
  | .shqry sa sb rstep => Sys2Proof.Machine.execShqry sa sb rstep s
  | .mma f => Sys2Proof.Machine.execMma f s
  | .mmaz f => Sys2Proof.Machine.execMmaz f s
  | .mseq f => Sys2Proof.Machine.execMseq f s
  | .mzero acc i32 rstep => Sys2Proof.Machine.execMzero acc i32 rstep s
  | .mrd f => Sys2Proof.Machine.execMrd f s
  | .mwr f => Sys2Proof.Machine.execMwr f s
  | .kset bank side v rstep => Sys2Proof.Machine.execKset bank side v rstep s
  | .kone bank => Sys2Proof.Machine.execKone bank s
  | .act st bk row step => Sys2Proof.Machine.execAct st bk row step s
  | .rd f => Sys2Proof.Machine.execRd f s
  | .wr f => Sys2Proof.Machine.execWr f s
  | .rda f => Sys2Proof.Machine.execRda f s
  | .wra f => Sys2Proof.Machine.execWra f s
  | .pre st bk step => Sys2Proof.Machine.execPre st bk step s
  | .prea st => Sys2Proof.Machine.execPrea st s
  | .ref st => Sys2Proof.Machine.execRef st s
  | .refb st bk step => Sys2Proof.Machine.execRefb st bk step s
  | .sdrv g o => Sys2Proof.Machine.execSdrv g o s
  | .stap g o st => Sys2Proof.Machine.execStap g o st s
  | .sfwd g o st odir olane => Sys2Proof.Machine.execSfwd g o st odir olane s
  | .seos g => Sys2Proof.Machine.execSeos g s
  | .sred g o st odir olane rfmt => Sys2Proof.Machine.execSred g o st odir olane rfmt s
  | .bundleIssue tile => Sys2Proof.Machine.execBundleIssue tile s
  | .exposedResultLands tile => Sys2Proof.Machine.execExposedResultLands tile s
  | .ovlLoadComplete tile => Sys2Proof.Machine.execOvlLoadComplete tile s
  | .ldwbComplete tile => Sys2Proof.Machine.execLdwbComplete tile s
  | .mmaPass1Start tile => Sys2Proof.Machine.execMmaPass1Start tile s
  | .mmaResultReady tile => Sys2Proof.Machine.execMmaResultReady tile s
  | .mseqStepStart tile => Sys2Proof.Machine.execMseqStepStart tile s
  | .vaultLanding tile => Sys2Proof.Machine.execVaultLanding tile s
  | .wrSample tile => Sys2Proof.Machine.execWrSample tile s
  | .prechargePoint tile bank => Sys2Proof.Machine.execPrechargePoint tile bank s
  | .refreshComplete tile bank => Sys2Proof.Machine.execRefreshComplete tile bank s
  | .drefl tile => Sys2Proof.Machine.execDrefl tile s
  | .mpRefreshDeadline tile bank => Sys2Proof.Machine.execMpRefreshDeadline tile bank s
  | .bandChange cluster celsius => Sys2Proof.Machine.execBandChange cluster celsius s
  | .refreshGuardRefresh tile bank => Sys2Proof.Machine.execRefreshGuardRefresh tile bank s
  | .sidePortServe tile id => Sys2Proof.Machine.execSidePortServe tile id s
  | .dynamicAccessEnd tile id => Sys2Proof.Machine.execDynamicAccessEnd tile id s
  | .pageWalkComplete die => Sys2Proof.Machine.execPageWalkComplete die s
  | .replicaCommit tile id => Sys2Proof.Machine.execReplicaCommit tile id s
  | .publishSwap ctx => Sys2Proof.Machine.execPublishSwap ctx s
  | .shuttleBeatIssue cluster => Sys2Proof.Machine.execShuttleBeatIssue cluster s
  | .shuttleBeatComplete cluster => Sys2Proof.Machine.execShuttleBeatComplete cluster s
  | .barrierPhaseComplete tile bar => Sys2Proof.Machine.execBarrierPhaseComplete tile bar s
  | .barrierCompletionSeen tile bar => Sys2Proof.Machine.execBarrierCompletionSeen tile bar s
  | .barwResume tile => Sys2Proof.Machine.execBarwResume tile s
  | .waitaReadReturn tile => Sys2Proof.Machine.execWaitaReadReturn tile s
  | .streamValueArrives tile dir lane data stamp eos => Sys2Proof.Machine.execStreamValueArrives tile dir lane data stamp eos s
  | .holdRelease plot => Sys2Proof.Machine.execHoldRelease plot s
  | .holdto tile => Sys2Proof.Machine.execHoldto tile s
  | .plotOverdue plot => Sys2Proof.Machine.execPlotOverdue plot s
  | .plotStopArrival tile => Sys2Proof.Machine.execPlotStopArrival tile s
  | .preemptRequest plot sub => Sys2Proof.Machine.execPreemptRequest plot sub s
  | .forcedStop plot => Sys2Proof.Machine.execForcedStop plot s
  | .plotResume plot x0 y0 => Sys2Proof.Machine.execPlotResume plot x0 y0 s
  | .retentionEntry cluster => Sys2Proof.Machine.execRetentionEntry cluster s
  | .plotArming plot x0 y0 => Sys2Proof.Machine.execPlotArming plot x0 y0 s
  | .startPulse plot => Sys2Proof.Machine.execStartPulse plot s
  | .tileFreed tile => Sys2Proof.Machine.execTileFreed tile s
  | .doorbell q v => Sys2Proof.Machine.execDoorbell q v s
  | .ringRead q => Sys2Proof.Machine.execRingRead q s
  | .queueEnable q d => Sys2Proof.Machine.execQueueEnable q d s
  | .launch p desc rec => Sys2Proof.Machine.execLaunch p desc rec s
  | .copy p desc rec => Sys2Proof.Machine.execCopy p desc rec s
  | .signal p va val w64 add => Sys2Proof.Machine.execSignal p va val w64 add s
  | .wait p va val w64 cmp timeout => Sys2Proof.Machine.execWait p va val w64 cmp timeout s
  | .waitSatisfied q => Sys2Proof.Machine.execWaitSatisfied q s
  | .waitTimeout q => Sys2Proof.Machine.execWaitTimeout q s
  | .callib p va len => Sys2Proof.Machine.execCallib p va len s
  | .retib p => Sys2Proof.Machine.execRetib p s
  | .graph p base cap count rec => Sys2Proof.Machine.execGraph p base cap count rec s
  | .fencek p => Sys2Proof.Machine.execFencek p s
  | .markk p tag => Sys2Proof.Machine.execMarkk p tag s
  | .graphNodeComplete q node => Sys2Proof.Machine.execGraphNodeComplete q node s
  | .timedNodeOffset q node => Sys2Proof.Machine.execTimedNodeOffset q node s
  | .queuePatienceExpiry q => Sys2Proof.Machine.execQueuePatienceExpiry q s
  | .irqAgeExpiry q => Sys2Proof.Machine.execIrqAgeExpiry q s
  | .queueReset q => Sys2Proof.Machine.execQueueReset q s
  | .queueResetComplete q => Sys2Proof.Machine.execQueueResetComplete q s
  | .patternChange cluster allot => Sys2Proof.Machine.execPatternChange cluster allot s
  | .splitChange plot level => Sys2Proof.Machine.execSplitChange plot level s
  | .droop die => Sys2Proof.Machine.execDroop die s
  | .droopFloorEnd die => Sys2Proof.Machine.execDroopFloorEnd die s
  | .leaseGrant plot => Sys2Proof.Machine.execLeaseGrant plot s
  | .leaseDeny plot reason => Sys2Proof.Machine.execLeaseDeny plot reason s
  | .leaseDurExpiry plot => Sys2Proof.Machine.execLeaseDurExpiry plot s
  | .leaseCapReached plot => Sys2Proof.Machine.execLeaseCapReached plot s
  | .supplyLoss => Sys2Proof.Machine.execSupplyLoss s
  | .pfailArrival plot => Sys2Proof.Machine.execPfailArrival plot s
  | .pfailHoldTimeout plot => Sys2Proof.Machine.execPfailHoldTimeout plot s
  | .keepStoreSave => Sys2Proof.Machine.execKeepStoreSave s
  | .pcSample tile => Sys2Proof.Machine.execPcSample tile s
  | .counterSnapshot part => Sys2Proof.Machine.execCounterSnapshot part s
  | .linkTraining link peerMod peerLink flightPs rate => Sys2Proof.Machine.execLinkTraining link peerMod peerLink flightPs rate s
  | .linkLoss drop => Sys2Proof.Machine.execLinkLoss drop s
  | .moduleStart run => Sys2Proof.Machine.execModuleStart run s
  | .spdmRequest index => Sys2Proof.Machine.execSpdmRequest index s
  | .manifestRead first => Sys2Proof.Machine.execManifestRead first s
  | .rangeEntryInstall ctx im e => Sys2Proof.Machine.execRangeEntryInstall ctx im e s
  | .translationInvalidate ctx => Sys2Proof.Machine.execTranslationInvalidate ctx s
  | .pageMigration ctx va newPa => Sys2Proof.Machine.execPageMigration ctx va newPa s
  | .pageMigrationCopyDone ctx => Sys2Proof.Machine.execPageMigrationCopyDone ctx s
  | .serviceMarkingChange tile strata => Sys2Proof.Machine.execServiceMarkingChange tile strata s
  | .hostCxlMemRead pa len => Sys2Proof.Machine.execHostCxlMemRead pa len s
  | .hostCxlMemWrite pa bytes => Sys2Proof.Machine.execHostCxlMemWrite pa bytes s
  | .peerAccessArrival pa acc => Sys2Proof.Machine.execPeerAccessArrival pa acc s
  | .registerWrite r => Sys2Proof.Machine.execRegisterWrite r s
  | .staticPortAccess tile => Sys2Proof.Machine.execStaticPortAccess tile s
  | .retentionExit cluster parityOk => Sys2Proof.Machine.execRetentionExit cluster parityOk s

end Sys2Proof.Machine
end

