-- ==== Sys2Proof/Machine/Place.lean ====
section
/-! DEFINITION. A program of one bundle placed on a tile, as a launch would have left it (DESIGN CHOICE, log entry 6). -/
namespace Sys2Proof.Machine

/-- The words of a bundle that issues one operation, in the first slot of its class: header with TMPL 31, extension word,
and the operation's words, the stop bit on the last (02 R31-R33); DRAIN is set for a hold-point operation (19 R344). -/
def bundleOf (nbits w : Nat) : List Word32 :=
  let w1 := BitVec.ofNat 32 (w % 2 ^ nbits) &&& 0x7FFFFFFF
  let w2 := BitVec.ofNat 32 (w % 2 ^ nbits / 2 ^ 32) &&& 0x7FFFFFFF
  let i := decodeTableWord nbits w
  let cl := (i.bind classOf).getD .s
  let slot := match cl with
    | .c => 0 | .s => 1 | .v => 3 | .f => 6 | .m => 7 | .x => 9 | .k => 10 | .d => 11 | .n => 13
  let hold := match i with
    | some (.hold _) | some (.barw true _ _ _) | some (.waita _ _ _ _ true _ _) => true
    | _ => false
  let head : Word32 := BitVec.ofNat 32 (31 * 2 ^ 26 + hold.toNat * 2 ^ 17)
  let stop : Word32 := 0x80000000
  head :: BitVec.ofNat 32 (2 ^ slot) ::
    (if opWords cl (fld w1 24 7) = 2 then [w1, w2 ||| stop] else [w1 ||| stop])

/-- A timetable of one tile with nothing declared. -/
def bareTimetable : Timetable :=
  { imageId := 0, npage := 1, codeVa := 0, entry := 0, w := 1, h := 1, bedw := 0, bedh := 0, esp := false, keep := false,
    svc := 0, nstrata := 0, panels := 44, holdmax := 200, rngKey0 := 0, rngKey1 := 0, rngCtr := 0, templates := [],
    offsets := [], wins := [], vwins := [], holds := [⟨.none, 0, false⟩], walks := [], bars := [], datas := [],
    musts := [], variants := [⟨[], 0, 2800, 3, 64, 1⟩], raw := [] }
/-- A plot of a timetable of one tile, running in sc 0 on tile 0. -/
def runningPlot (tt : Timetable) (mp : Nat) : Plot :=
  { newPlot tt 0 0 0 0 0 none 0 with
    st := .running, x0 := 0, y0 := 0, vtags := [0], scMp := mp, armMp := mp, holdMp := mp, pulMp := mp }
/-- Words put into the instruction store from a place on. -/
def putWords (m : Store 32) (a : Nat) : List Word32 → Store 32
  | [] => m
  | w :: r => putWords (sset 0 m a w) (a + 1) r
def State.placeWord (s : State) (nbits w : Nat) : State :=
  let t := (s.tile 0).bare
  { s with
    agenda := [], pulsed := true, down := false
    plots := aset s.plots 0 (runningPlot bareTimetable s.mp)
    tiles := aset s.tiles 0 { t with
      plot := some 0
      seq := { t.seq with istore := putWords t.seq.istore 0 (bundleOf nbits w), ftags := sset 0 t.seq.ftags 0 (pageTag 0 0) } } }

end Sys2Proof.Machine
end

