-- ==== Sys2Proof/Machine/Schedule.lean ====
section
/-! DEFINITION. What the machine does next of its own accord (DESIGN CHOICE, log entry 3): the row that is due, and the clock, which
gives each plot its pulses and begins its sc (28 R454-R457). -/
namespace Sys2Proof.Machine

/-! ### Rows that are due -/

/-- A row of the opcode table that the machine takes of its own accord, or the clock. -/
inductive Due where
  | bundle (n : Nat) | landing (n : Nat) (k : Landing) | precharge (n b : Nat) | refreshed (n b : Nat) | drefl (n : Nat)
  | mpDeadline (n b : Nat) | guard (n b : Nat)
  | dyn (n : Nat) (r : DynRow) | walk (die : Nat) | publish (c : Nat) | beatIssue (cl : Nat) | beatDone (cl : Nat)
  | ovl (n : Nat) | phase (n b : Nat) | seen (n b : Nat) | barw (n : Nat) | waita (n : Nat) | stream (n : Nat) (f : Flow)
  | holdRelease (k : Nat) | holdto (n : Nat) | overdue (k : Nat) | stopArrival (n : Nat) | preempt (k : Nat)
  | forced (k : Nat) | resume (k x y : Nat) | arming (k x y : Nat) | start (k : Nat) | freed (n : Nat)
  | ringRead (q : Nat) | packet (p : Packet) | waitSatisfied (q : Nat) | waitTimeout (q : Nat) | node (q i : Nat)
  | timed (q i : Nat) | patience (q : Nat) | irqAge (q : Nat) | resetDone (q : Nat)
  | pattern (cl a : Nat) | droopEnd (die : Nat) | leaseGrant (k : Nat) | leaseDeny (k : Nat) (r : BitVec 4)
  | leaseDur (k : Nat) | leaseCap (k : Nat) | pfail (k : Nat) | pfailTimeout (k : Nat) | keepSave
  | peer (id : Nat)
  | sample (n : Nat) | snapshot (p : Nat) | migrated (c : Nat)
  | parity (cl : Nat)
  | pulse | count | tick
deriving DecidableEq, Repr

/-- The first thing that some stage finds. -/
def firstSome {α : Type} : List (Unit → Option α) → Option α
  | [] => none
  | f :: r => match f () with
    | some x => some x
    | none => firstSome r

/-- Tiles of plots that run. -/
def State.runners (s : State) : List Nat :=
  s.held.filter (fun n => match s.plotOf n with | some pl => pl.st = .running | none => false)

/-- What arrives at a tile as its sc begins. -/
def State.dueArrival (s : State) (n : Nat) : Option Due :=
  let t := s.tile n
  let now := s.now n
  firstSome [
    fun _ => (t.inbox.find? (fun f => f.due = now && !f.present)).map (.stream n),
    fun _ => (t.bars.find? (fun p => s.seenDue n p.1)).map (fun p => .seen n p.1),
    fun _ => (t.vault.banks.find? (fun p => atPrechargePoint t p.1)).map (fun p => .precharge n p.1),
    fun _ => (t.vault.banks.find? (fun p => atRefreshComplete t p.1)).map (fun p => .refreshed n p.1),
    fun _ => if t.vault.expired != [] then some (.drefl n) else none,
    fun _ => if s.barwLeaves n && s.movtLanded n then some (.barw n) else none]
/-- A landing of a tile, before or after its turn. -/
def State.dueLanding (s : State) (turn : Bool) (n : Nat) : Option Due :=
  -- no MSEQ step starts at the boundary of a forced stop: its drain runs on to the checkpoint (16 R321)
  let stopped := match s.plotOf n with
    | some pl => (match pl.forced with | some (f, _) => decide (f ≤ pl.scyc) | none => false)
    | none => false
  if (s.tile n).turn = turn then
    (match s.landingDue n with
      | some k => if stopped && k = .step then none else some (.landing n k)
      | none => none)
  else none
/-- A plot stop that is taken at this boundary. -/
def State.dueStop (s : State) (n : Nat) : Option Due :=
  if (s.tile n).turn then none
  else match (s.tile n).trap.stopAt with
    | some _ => (match firstOf (s.boundary n) with
      | some p => if p.2.1.code = 0x16 then some (.stopArrival n) else none
      | none => none)
    | none => none
/-- Work of a tile beside its bundles. -/
def State.dueWork (s : State) (n : Nat) : Option Due :=
  firstSome [
    fun _ => if s.waitaMay n then some (.waita n) else none,
    fun _ => (s.dynRow n).map (.dyn n),
    fun _ => if (s.tryOvl n).isSome then some (.ovl n) else none]
/-- Work of a Shuttle, or of the Loom's channel. -/
def State.dueShuttle (s : State) (cl : Nat) : Option Due :=
  firstSome [
    fun _ => if (s.beatComplete cl).isSome then some (.beatDone cl) else none,
    fun _ => if (s.beatIssue cl).isSome then some (.beatIssue cl) else none]
/-- What a queue does next. -/
def State.dueQueue (s : State) (q : Nat) : Option Due :=
  firstSome [
    fun _ => if s.canRead q then some (.ringRead q) else none,
    fun _ => if s.waitReady q then some (.waitSatisfied q) else none,
    fun _ => if s.waitLate q then some (.waitTimeout q) else none,
    fun _ => (s.nodeDue q).map (.node q),
    fun _ => (s.timedDue q).map (.timed q),
    fun _ => if s.patienceDue q then some (.patience q) else none,
    fun _ => if s.irqDue q then some (.irqAge q) else none,
    fun _ => if s.resetOver q then some (.resetDone q) else none]
/-- What becomes of a plot in real time. -/
def State.duePlot (s : State) (k : Nat) (pl : Plot) : Option Due :=
  firstSome [
    fun _ => if s.pfail.isSome && pl.pfailAt.isNone && (pl.st = .running || pl.st = .paused) then some (.pfail k) else none,
    fun _ => if s.pfailLate pl && pl.forced.isNone then some (.pfailTimeout k) else none,
    fun _ => if s.isOverdue pl && !pl.overdue then some (.overdue k) else none,
    fun _ => if s.leaseTimeUp pl then some (.leaseDur k) else none,
    fun _ => if s.leaseSpent pl then some (.leaseCap k) else none,
    fun _ => if pl.lease.state = 1 && pl.live && s.frameStart then
        (if s.pfail.isSome then some (.leaseDeny k 4) else if pl.lease.uj = 0 then some (.leaseDeny k 3)
        else some (.leaseGrant k)) else none,
    fun _ => (pl.tileList.find? (fun n => s.timedOut n)).map .holdto,
    fun _ => if pl.st = .paused && !s.retainedPlot pl && (match afind (s.pollHolds k pl).plots k with
        | some p => s.allHeld k p
        | none => false) then some (.holdRelease k) else none]
/-- A bank whose refresh deadline in mp has run out. -/
def State.dueRefresh (s : State) (n : Nat) : Option Due :=
  let l := (s.tile n).vault.refMp
  firstSome [
    fun _ => (l.find? (fun p => s.mpExpired n p.1)).map (fun p => .mpDeadline n p.1),
    fun _ => (l.find? (fun p => s.mpDue n p.1 && !s.programs n p.1)).map (fun p => .guard n p.1)]
/-- The timetables that wait for a rectangle, in the order in which the Loom places them: by level, then those that are
pre-empted, then by number (24 R416). -/
def State.waiting (s : State) : List (Nat × Plot) :=
  sortBy (fun p : Nat × Plot => (7 - p.2.level) * 2 ^ 41 + (if p.2.st = .preempted then 0 else 2 ^ 40) + p.1)
    (s.plots.filter (fun p => p.2.st = .placing || p.2.st = .preempted))
/-- A rectangle on which a pre-empted timetable resumes: the one it ran on, if it can. -/
def State.resumeRect (s : State) (pl : Plot) : Option (Nat × Nat) :=
  ((pl.x0, pl.y0) :: s.rects pl).find? (fun r => s.rectFree pl r.1 r.2 && (s.resumeVariant { pl with x0 := r.1, y0 := r.2 }).isSome)
/-- What placing a timetable needs next: arming, or the pre-emption of a plot in its way (24 R417). -/
def State.duePlace (s : State) (p : Nat × Plot) : Option Due :=
  if s.pfail.isSome then none
  -- a pre-empted timetable is placed before any new launch of its level (24 R416)
  else if p.2.st = .placing && s.preemptedAt p.2.level then none
  else if p.2.st = .preempted then (s.resumeRect p.2).map (fun r => .resume p.1 r.1 r.2)
  else match s.findRect p.2 with
    | some r => some (.arming p.1 r.1 r.2)
    | none => (s.victims p.2).findSome? (fun k => match afind s.plots k with
      | some v => if (v.st = .running || v.st = .paused) && v.taken.isNone && v.forced.isNone &&
          !(v.stops.any (fun q => q.kind = .preempt)) then some (.preempt k) else none
      | none => none)
/-- An armed plot all of whose tiles are its own starts. -/
def State.dueStart (s : State) (p : Nat × Plot) : Option Due :=
  if p.2.st = .armed && s.pfail.isNone && p.2.ranks.all (fun r =>
      (s.tile (p.2.tileAt (r % p.2.w) (r / p.2.w))).plot == some p.1) &&
      p.2.armMp + (if p.2.resumes && !p.2.atHold then s.guardWait (s.tilesOf p.1 p.2) else 0) ≤ s.mp then
    some (.start p.1) else none
/-- A cluster whose pattern changes at this frame. -/
def State.duePattern (s : State) (cl : Nat) : Option Due :=
  let a := (s.cluster cl).allot
  if s.frameStart && ((s.patternChange cl a).cluster cl).pat != (s.cluster cl).pat then some (.pattern cl a) else none

/-- The row that is due, in an order that keeps the order within an sc (DESIGN CHOICE, log entry 3)
(DESIGN CHOICE, log entry 48). -/
def State.nextDue (s : State) : Due :=
  let held := s.held
  let run := s.runners
  let stages : List (Unit → Option Due) := if s.pulsed then [
      fun _ => run.findSome? s.dueArrival,
      fun _ => run.findSome? (s.dueLanding false),
      fun _ => (s.tiles.map (·.1)).findSome? s.dueRefresh,
      fun _ => (s.plots.find? (fun p => s.forcedMay p.1 p.2)).map (fun p => .forced p.1),
      fun _ => run.findSome? s.dueStop,
      fun _ => if !s.counted && s.parts != [] then some .count else none,
      fun _ => (held.find? s.sampleDue).map .sample,
      fun _ => (run.find? s.mayIssue).map .bundle,
      fun _ => run.findSome? (s.dueLanding true),
      fun _ => held.findSome? s.dueWork,
      fun _ => s.peerDue.map .peer,
      fun _ => (s.clusters.map (·.1)).findSome? s.dueShuttle,
      fun _ => s.walks.head?.map (fun w => .walk w.die),
      fun _ => (s.ctxs.find? (fun c => (s.nextPub c.1).isSome)).map (fun c => .publish c.1),
      fun _ => (s.ctxs.find? (fun c => s.copyMay c.1)).map (fun c => .migrated c.1),
      fun _ => held.findSome? (fun n => ((s.tile n).bars.find? (fun p => s.phaseDue n p.1)).map (fun p => .phase n p.1)),
      fun _ => (held.find? s.freeable).map .freed,
      fun _ => s.plots.findSome? (fun p => s.duePlot p.1 p.2),
      fun _ => (s.queues.map (·.1)).findSome? s.dueQueue,
      fun _ => (s.nextQueue.bind (fun q => (s.queue q).next)).map .packet,
      fun _ => s.waiting.findSome? s.duePlace,
      fun _ => s.plots.findSome? s.dueStart,
      fun _ => if s.pfail.isSome then (s.clusters.find? (fun c => c.2.retained)).map (fun c => .parity c.1) else none,
      fun _ => (s.parts.find? (fun p => s.snapDue p.1)).map (fun p => .snapshot p.1),
      fun _ => if s.keepReady then some .keepSave else none]
    else [
      fun _ => (s.droops.find? (fun p => p.2 ≤ s.mp)).map (fun p => .droopEnd p.1),
      fun _ => if s.frameStart then (List.range s.model.clusters).findSome? s.duePattern else none]
  (firstSome stages).getD (if s.pulsed then .tick else .pulse)

/-! ### The clock -/

/-- The sc of a tile that begins is frozen (04 R101): its monitor runs, or it waits and will not resume in it. -/
def frozenSc (t : Tile) (u : Nat) : Bool :=
  t.trap.sup || (match t.seq.wait with
    | .barw b ph _ =>
      let r := t.bar b
      let changes := (r.seenAt.filter (· ≤ u)).length
      (r.seen != (changes % 2 == 1)) == ph
    | .waita _ _ _ _ _ => true
    | _ => false)
/-- The refresh deadlines of a tile's banks are counted where their strata are scheduled, or in a stopped cluster (04 R90-R92). -/
def syncRefresh (v : Vault) (mp : Nat) (hot : Bool) : Vault :=
  let old := v.refMp.filter (fun p => v.scheduled (p.1 / 16) || hot)
  let new := ((v.banks.map (·.1)).filter (fun k => v.scheduled (k / 16) && (afind old k).isNone))
  { v with refMp := old ++ new.map (fun k => (k, mp)) }
/-- A tile as sc u of its plot begins. -/
def Tile.newSc (t : Tile) (u mp : Nat) (hot : Bool) : Tile :=
  { t with
    turn := false, polled := false, shown := none, ports := t.ports.filter (fun r => u ≤ r.sc)
    dynUse := t.dynUse.filter (fun r => u ≤ r.1)
    inbox := t.inbox.filter (fun f => u ≤ f.due)
    bars := t.bars.map (fun p => (p.1, { p.2 with tested := false }))
    vault := syncRefresh (if frozenSc t u then t.vault.freeze else t.vault.age) mp hot }
/-- What the other modules of a plot add to its barriers by this sc, or during a pause: to every instance that spans
modules, once (09 R171, R172; log entry 7). -/
def State.peerCounts (s : State) (k : Nat) (pl : Plot) : State :=
  if !pl.spans then s
  else
    let add (s : State) (n b : Nat) : State :=
      if b != 48 && Inst.spans pl (instOf pl (s.tile n).lx (s.tile n).ly ((s.tile n).bar b)) && (s.members n b).head? = some n then
        let q := Config.peerCount s.freeCtr b
        s.count n b q.1 q.2.1 q.2.2.1 q.2.2.2.1 q.2.2.2.2
      else s
    let s := (s.tilesOf k pl).foldl (fun s n => ((s.tile n).bars.map (·.1)).foldl (fun s b => add s n b) s) s
    { s with freeCtr := s.freeCtr + 1 }
/-- The next sc of a plot begins. -/
def State.newSc (s : State) (k : Nat) (pl : Plot) : State :=
  let s := (s.peerCounts k pl).mapPlot k (fun p => { p with
    scyc := p.scyc + 1, scMp := s.mp, got := 0, scEnergy := (s.ctx p.ctx).energy })
  (s.tilesOf k pl).foldl (fun s n => (s.mapTile n (fun t =>
    t.newSc (pl.scyc + 1) s.mp (s.cluster (clusterOf n)).hot)).countTile n 1 1) s
/-- The clusters that deliver a pulse at this mp (28 R454). -/
def State.delivers (s : State) (cl : Nat) : Bool := patBit (s.cluster cl).pat (s.mp % 16)
/-- A running plot at a master pulse: a plot pulse once every cluster has delivered one since the last; a new sc, or a
pause, after the pulses of the sc (28 R455, 19 R356). -/
def State.plotPulse (s : State) (k : Nat) (pl : Plot) : State :=
  let came := pl.clusters.filter (fun cl => pl.came.contains cl || s.delivers cl)
  -- the clusters of the other modules of the plot (01 R25; log entry 7)
  let peers := !pl.spans || Config.peerReady s.freeCtr
  let late := pl.overrun || s.overrunNow pl || (pl.spans && Config.peerLate s.freeCtr)
  let s := if pl.spans then { s with freeCtr := s.freeCtr + 1 } else s
  if s.mp < pl.guardMp then s.mapPlot k (fun p => { p with overrun := late })
  else if came.length != pl.clusters.length || !peers then s.mapPlot k (fun p => { p with came := came, overrun := late })
  else
    let s := s.mapPlot k (fun p => { p with came := [], overrun := late })
    let last := splitOf pl.split ≤ pl.got + 1
    let s := if last then s.enterPause k else s
    match afind s.plots k with
    | none => s
    | some p =>
      -- a hold that pauses the plot, or a stop taken there, uses no pulse
      if p.st != .running || p.scyc != pl.scyc then s
      else
        let s := s.mapPlot k (fun p => { p with pulMp := s.mp, got := p.got + 1 })
        let s := s.countEvent (s.partOf pl.ctx) 3 (s.tilesOf k pl).length
        if last then s.newSc k p else (s.tilesOf k p).foldl (fun s n => s.flushMarks n (p.got + 1)) s
/-- A plot at a master pulse: it runs, or its hold conditions are evaluated (19 R356). -/
def State.pulsePlot (s : State) (p : Nat × Plot) : State :=
  match p.2.st with
  | .running => s.plotPulse p.1 p.2
  | .paused => if s.retainedPlot p.2 then s else (s.peerCounts p.1 p.2).pollHolds p.1 p.2
  | _ => s
/-- A queue that cannot start a packet is not ready (24 R416). -/
def State.unready (s : State) : State :=
  (s.queues.map (·.1)).foldl (fun s q => if s.startable q then s else s.mapQueue q (fun k => { k with readyMp := s.mp })) s
/-- Every plot has the current master pulse. -/
def State.pulse (s : State) : State :=
  ({ s.plots.foldl State.pulsePlot s with pulsed := true } : State).unready
/-- The next master pulse (DEDUCED, log entry 32). -/
def State.tick (s : State) : State := { s with mp := s.mp + 1, pulsed := false, sampled := [], counted := false }

/-! ### The row taken -/

/-- A landing row. -/
def landingRow (n : Nat) (k : Landing) (s : State) : Host.Outcome State Fault Refusal :=
  match k with
  | .exposed => execExposedResultLands n s
  | .port => execStaticPortAccess n s
  | .vault => execVaultLanding n s
  | .sample => execWrSample n s
  | .ldwb => execLdwbComplete n s
  | .pass1 => execMmaPass1Start n s
  | .ready => execMmaResultReady n s
  | .step => execMseqStepStart n s
/-- The row of a packet. -/
def packetRow (p : Packet) (s : State) : Host.Outcome State Fault Refusal :=
  match p with
  | .launch p d r => execLaunch p d r s
  | .copy p d r => execCopy p d r s
  | .signal p va v w a => execSignal p va v w a s
  | .wait p va v w c t => execWait p va v w c t s
  | .callib p va n => execCallib p va n s
  | .retib p => execRetib p s
  | .graph p b c n r => execGraph p b c n r s
  | .fencek p => execFencek p s
  | .markk p t => execMarkk p t s
/-- The row that is due, taken. -/
def Due.take (d : Due) (s : State) : Host.Outcome State Fault Refusal :=
  match d with
  | .bundle n => execBundleIssue n s
  | .landing n k => landingRow n k s
  | .precharge n b => execPrechargePoint n b s
  | .refreshed n b => execRefreshComplete n b s
  | .drefl n => execDrefl n s
  | .mpDeadline n b => execMpRefreshDeadline n b s
  | .guard n b => execRefreshGuardRefresh n b s
  | .dyn n (.serve id) => execSidePortServe n id s
  | .dyn n (.commit id) => execReplicaCommit n id s
  | .dyn n (.done id) => execDynamicAccessEnd n id s
  | .walk d => execPageWalkComplete d s
  | .publish c => execPublishSwap c s
  | .beatIssue cl => execShuttleBeatIssue cl s
  | .beatDone cl => execShuttleBeatComplete cl s
  | .ovl n => execOvlLoadComplete n s
  | .phase n b => execBarrierPhaseComplete n b s
  | .seen n b => execBarrierCompletionSeen n b s
  | .barw n => execBarwResume n s
  | .waita n => execWaitaReadReturn n s
  | .stream n f => execStreamValueArrives n f.dir (BitVec.ofNat 4 f.lane) f.data f.stamp f.eos s
  | .holdRelease k => execHoldRelease k s
  | .holdto n => execHoldto n s
  | .overdue k => execPlotOverdue k s
  | .stopArrival n => execPlotStopArrival n s
  | .preempt k => execPreemptRequest k 0xE0 s
  | .forced k => execForcedStop k s
  | .resume k x y => execPlotResume k x y s
  | .arming k x y => execPlotArming k x y s
  | .start k => execStartPulse k s
  | .freed n => execTileFreed n s
  | .ringRead q => execRingRead q s
  | .packet p => packetRow p s
  | .waitSatisfied q => execWaitSatisfied q s
  | .waitTimeout q => execWaitTimeout q s
  | .node q i => execGraphNodeComplete q i s
  | .timed q i => execTimedNodeOffset q i s
  | .patience q => execQueuePatienceExpiry q s
  | .irqAge q => execIrqAgeExpiry q s
  | .resetDone q => execQueueResetComplete q s
  | .pattern cl a => execPatternChange cl a s
  | .droopEnd d => execDroopFloorEnd d s
  | .leaseGrant k => execLeaseGrant k s
  | .leaseDeny k r => execLeaseDeny k r s
  | .leaseDur k => execLeaseDurExpiry k s
  | .leaseCap k => execLeaseCapReached k s
  | .pfail k => execPfailArrival k s
  | .pfailTimeout k => execPfailHoldTimeout k s
  | .keepSave => execKeepStoreSave s
  | .peer id => act (fun s => (s.peerServe id).getD s) s
  | .sample n => execPcSample n s
  | .snapshot p => execCounterSnapshot p s
  | .migrated c => execPageMigrationCopyDone c s
  | .parity cl => execRetentionExit cl (Config.parityOk s.freeCtr) { s with freeCtr := s.freeCtr + 1 }
  | .pulse => act State.pulse s
  | .count => act State.countReasons s
  | .tick => act State.tick s

end Sys2Proof.Machine
end

