-- ==== Sys2Proof/Machine/Step.lean ====
section
/-! DEFINITION. One step of the machine, and a word placed where the next step fetches. -/
namespace Sys2Proof.Machine

/-- One step: what the outside asks for, the oldest first, else what is due of the machine's own (DESIGN CHOICE, log entry 3). -/
def step (s : State) : Host.Outcome State Fault Refusal :=
  match s.agenda with
  | i :: r => exec i { s with agenda := r }
  | [] => if s.down then .fault .poweredDown else s.nextDue.take s

/-- The table's word placed as the one operation of the bundle at address 0 of a plot of one tile that runs on tile 0,
its turn at sc 0 to come (DESIGN CHOICE, log entry 6). -/
def State.withFetchWord (s : State) (nbits w : Nat) : State := s.placeWord nbits w

end Sys2Proof.Machine
end

