-- ==== Sys2Proof/Safety.lean ====
section
/-! DEFINITION. What a safe run is: the machine goes on, and its memory keeps its canonical form. -/
namespace Sys2Proof.Safety
open Sys2Proof.Machine

/-- A step answers a next state. -/
def completes (o : Host.Outcome State Fault Refusal) : Bool :=
  match o with
  | .next _ => true
  | _ => false
/-- The invariant of the state that every step keeps: memory is in canonical form. -/
def Inv (s : State) : Prop := Memory.wf s.mem = true

end Sys2Proof.Safety
end

