-- ==== Sys2Proof/Certificates/Slice0/Obligations.lean ====
section
/-! DEFINITION. The statements for the provers. Claims holds the tables, the next states and the relations between states
in terms of which they are made; every obligation is a def Obligations.<Name>. -/

namespace Sys2Proof.Claims
open Sys2Proof.Machine

/-! ### Next states of an operation of a slot -/

/-- The tile on which an operation issues. -/
def issuer (s : State) : Tile := s.tile s.cur.tile
/-- The tile with effects of the operation under way, each its latency after the issue sc. -/
def pushed (s : State) (l : List (Nat × Act)) (t : Tile) : Tile :=
  l.foldl (fun t p => t.push s.env (s.env.now + p.1) p.2) t
/-- The state after an operation that changes its own tile by f and begins effects: nothing else of the state changes,
and the tile counts the operation. -/
def begunWith (f : Tile → Tile) (s : State) (l : List (Nat × Act)) : State :=
  s.setTile s.cur.tile (f (pushed s l (issuer s))).nextSeq
/-- The state after an operation that only begins effects. -/
def begun (s : State) (l : List (Nat × Act)) : State := begunWith id s l
/-- The state after an operation that takes a trap at its bundle. -/
def trapped (s : State) (tr : Trap) : State := s.takeTrap s.cur.tile tr s.cur.addr s.cur.idx

/-! ### The scalar slots (13 R243-R251) -/

/-- Destination, latency and value of an integer operation on scalars, by the tables of 13 R243 to R245. -/
def integerRow (t : Tile) : Instr → Option (BitVec 6 × Nat × BitVec 64)
  | .add d a b => some (d, 1, t.rs a + t.rs b)
  | .sub d a b => some (d, 1, t.rs a - t.rs b)
  | .mul d a b => some (d, 3, t.rs a * t.rs b)
  | .mulh d a b => some (d, 3, ((t.rs a).signExtend 128 * (t.rs b).signExtend 128).extractLsb' 64 64)
  | .mulhu d a b => some (d, 3, ((t.rs a).setWidth 128 * (t.rs b).setWidth 128).extractLsb' 64 64)
  | .and d a b => some (d, 1, t.rs a &&& t.rs b)
  | .or d a b => some (d, 1, t.rs a ||| t.rs b)
  | .xor d a b => some (d, 1, t.rs a ^^^ t.rs b)
  | .andn d a b => some (d, 1, t.rs a &&& ~~~ t.rs b)
  | .shl d a b => some (d, 1, t.rs a <<< (t.rs b &&& 63))
  | .shr d a b => some (d, 1, t.rs a >>> (t.rs b &&& 63))
  | .sar d a b => some (d, 1, (t.rs a).sshiftRight' (t.rs b &&& 63))
  | .rol d a b => some (d, 1, (t.rs a).rotateLeft (t.rs b &&& 63).toNat)
  | .min d a b => some (d, 1, if (t.rs b).slt (t.rs a) then t.rs b else t.rs a)
  | .max d a b => some (d, 1, if (t.rs a).slt (t.rs b) then t.rs b else t.rs a)
  | .minu d a b => some (d, 1, if (t.rs b).ult (t.rs a) then t.rs b else t.rs a)
  | .maxu d a b => some (d, 1, if (t.rs a).ult (t.rs b) then t.rs b else t.rs a)
  | .extb d a b w => some (d, 1, BitVec.ofNat 64 ((t.rs a).toNat / 2 ^ ((t.rs b).toNat % 64) % 2 ^ (w.toNat + 1)))
  | .sel d a b p => some (d, 1, if t.rp p then t.rs a else t.rs b)
  | .addi d a i => some (d, 1, t.rs a + i.signExtend 64)
  | .andi d a i => some (d, 1, t.rs a &&& i.signExtend 64)
  | .ori d a i => some (d, 1, t.rs a ||| i.signExtend 64)
  | .xori d a i => some (d, 1, t.rs a ^^^ i.signExtend 64)
  | .shli d a h => some (d, 1, t.rs a <<< h)
  | .shri d a h => some (d, 1, t.rs a >>> h)
  | .sari d a h => some (d, 1, (t.rs a).sshiftRight' h)
  | .li d i => some (d, 1, i.signExtend 64)
  | .lih d i => some (d, 1, i ++ (t.rs d).setWidth 32)
  | _ => none
/-- Destination and value of an integer compare or a predicate operation (13 R246, R248). -/
def predicateRow (t : Tile) : Instr → Option (BitVec 4 × Bool)
  | .cmpeq d a b => some (d, t.rs a = t.rs b)
  | .cmpne d a b => some (d, t.rs a ≠ t.rs b)
  | .cmplt d a b => some (d, (t.rs a).toInt < (t.rs b).toInt)
  | .cmple d a b => some (d, (t.rs a).toInt ≤ (t.rs b).toInt)
  | .cmpltu d a b => some (d, (t.rs a).toNat < (t.rs b).toNat)
  | .cmpleu d a b => some (d, (t.rs a).toNat ≤ (t.rs b).toNat)
  | .cmpeqi d a i => some (d, t.rs a = i.signExtend 64)
  | .cmplti d a i => some (d, (t.rs a).toInt < i.toInt)
  | .pand d a b => some (d, t.rp a ∧ t.rp b)
  | .por d a b => some (d, t.rp a ∨ t.rp b)
  | .pxor d a b => some (d, t.rp a ≠ t.rp b)
  | .pnot d a => some (d, ¬ t.rp a)
  | _ => none
/-- Bit i of v is bit i of a outside the w + 1 bits from place p on, and bit i - p of x inside them. -/
def inserted (v a x : BitVec 64) (p w : Nat) : Prop :=
  ∀ i < 64, v.getLsbD i = if p ≤ i ∧ i ≤ p + w then x.getLsbD (i - p) else a.getLsbD i
/-- n leading zeros stand in a. -/
def leadingZeros (a : BitVec 64) (n : Nat) : Prop :=
  (a = 0 ∧ n = 64) ∨ (n < 64 ∧ 2 ^ (63 - n) ≤ a.toNat ∧ a.toNat < 2 ^ (64 - n))
/-- Destination, rounding mode, result and flags of a floating-point operation on scalars (13 R249, R251). -/
def floatRow (t : Tile) : Instr → Option (BitVec 6 × Rm × (Rm → BitVec 64 × Flags))
  | .fadd d a b rm => some (d, rm, fun m => toF32 m (addNum (m == .rd) (t.f32 a) (t.f32 b)))
  | .fsub d a b rm => some (d, rm, fun m => toF32 m (subNum (m == .rd) (t.f32 a) (t.f32 b)))
  | .fmul d a b rm => some (d, rm, fun m => toF32 m (mulNum (t.f32 a) (t.f32 b)))
  | .ffma d a b x rm => some (d, rm, fun m => toF32 m (ffmaNum (m == .rd) (t.f32 a) (t.f32 b) (t.f32 x)))
  | .fcvti d a w64 uns sat rm => some (d, rm, fun m =>
      let w := if w64 then 64 else 32
      let r := floatToInt w (!uns) m sat 0 (t.f32 a)
      (extendTo w uns r.1, r.2))
  | .fcvtf d a w64 uns rm => some (d, rm, fun m =>
      toF32 m (Machine.Num.ofInt (intVal (if w64 then 64 else 32) (!uns) (t.rs a).toNat), fNone))
  | _ => none

end Sys2Proof.Claims

open Sys2Proof Sys2Proof.Machine Sys2Proof.Claims

/-- The integer operations of the scalar slots give the values of the tables of chapter 13, each after its latency,
and change nothing else: arithmetic modulo 2^64, shift counts of six bits, CLZ of zero 64, EXTB and INSB on the bits
that exist, SEL by its predicate (13 R243, R244; latencies R239; the immediate forms R245). -/
def Obligations.IntegerResultsOfScalarSlots : Prop :=
  (∀ (s : State) (i : Instr) (d : BitVec 6) (lat : Nat) (v : BitVec 64), s.down = false →
    integerRow (issuer s) i = some (d, lat, v) → exec i s = .next (begun s [(lat, (issuer s).wScalar d v)])) ∧
  (∀ (s : State) (d a b w : BitVec 6), s.down = false →
    (∃ v, inserted v ((issuer s).rs d) ((issuer s).rs a) (((issuer s).rs b).toNat % 64) w.toNat ∧
      exec (.insb d a b w) s = .next (begun s [(1, (issuer s).wScalar d v)])) ∧
    (∃ n, leadingZeros ((issuer s).rs a) n ∧
      exec (.clz d a) s = .next (begun s [(1, (issuer s).wScalar d (BitVec.ofNat 64 n))])) ∧
    exec (.popc d a) s = .next (begun s [(1, (issuer s).wScalar d
      (BitVec.ofNat 64 ((List.range 64).countP ((issuer s).rs a).getLsbD)))]))

/-- The compares and the predicate operations of the scalar slots write their predicate at t + 1, p0 reading true
whatever is written to it; MOVPS gathers the predicates with a one for p0, and MOVP writes the predicates p1 to p15
that its second source names, each from its bit of the first (13 R246, R248). -/
def Obligations.PredicateResultsOfScalarSlots : Prop :=
  ∀ (s : State) (d : BitVec 4) (e a b : BitVec 6), s.down = false →
    (∀ (i : Instr) (v : Bool), predicateRow (issuer s) i = some (d, v) → exec i s = .next (begun s [(1, .pred d.toNat v)])) ∧
    (∀ t : Tile, t.rp 0 = true) ∧
    (∃ v : BitVec 64, (∀ k < 64, v.getLsbD k = decide (k = 0 ∨ (k < 16 ∧ (issuer s).regs.preds.getLsbD k = true))) ∧
      exec (.movps e) s = .next (begun s [(1, (issuer s).wScalar e v)])) ∧
    ∃ l : List Nat, (∀ k, k ∈ l ↔ 1 ≤ k ∧ k < 16 ∧ ((issuer s).rs b).getLsbD k = true) ∧
      exec (.movp a b) s = .next (begun s (l.map (fun k => (1, .pred k (((issuer s).rs a).getLsbD k)))))

/-- The floating-point operations of the scalar slots, in every rounding mode but stochastic: the result and its flags
land at t + 4; under stochastic rounding the operation takes RESCOMBO with REASON 0 (13 R249-R251; DEDUCED for NV of
FFMA, log entry 18). -/
def Obligations.FloatResultsOfScalarSlots : Prop :=
  (∀ (s : State) (i : Instr) (d : BitVec 6) (rm : Rm) (f : Rm → BitVec 64 × Flags), s.down = false →
    floatRow (issuer s) i = some (d, rm, f) →
    (rm ≠ .sr → exec i s = .next (begun s [(4, (issuer s).wScalar d (f ((issuer s).rmFixed rm)).1),
      (4, .flags (f ((issuer s).rmFixed rm)).2)])) ∧
    (rm = .sr → exec i s = .next (trapped s (rescombo 0 s.cur.slot)))) ∧
  ∀ (s : State) (d : BitVec 4) (a b : BitVec 6), s.down = false →
    exec (.fcmplt d a b) s = .next (begun s
      [(4, .pred d.toNat (!((issuer s).f32 a).isNan && !((issuer s).f32 b).isNan &&
          ltNum ((issuer s).f32 a) ((issuer s).f32 b))),
       (4, .flags (if ((issuer s).f32 a).isNan || ((issuer s).f32 b).isNan then fNV else fNone))]) ∧
    exec (.fcmpeq d a b) s = .next (begun s
      [(4, .pred d.toNat (eqNum ((issuer s).f32 a) ((issuer s).f32 b))),
       (4, .flags (if ((issuer s).f32 a).isSNan || ((issuer s).f32 b).isSNan then fNV else fNone))])

namespace Sys2Proof.Claims
open Sys2Proof.Machine

/-! ### The C slot (19 R342-R360) -/

/-- The state after a C operation that begins effects and leaves the sequencer changed by g. -/
def steered (g : Seq → Seq) (s : State) (l : List (Nat × Act)) : State :=
  begunWith (fun t => t.mapSeq (fun q => { g q with ctl := .none })) s l
/-- The byte address that lies a signed number of words from an address, in the 24-bit program space (19 R346). -/
def wordsOff (addr : Nat) (words : Int) : Nat := (((addr : Int) + 4 * words) % 2 ^ 24).toNat
/-- The cursor of a walker goes up by one. -/
def nextWalk (w : BitVec 4) (q : Seq) : Seq := { q with walk := sset 0 q.walk w.toNat (sget 0 q.walk w.toNat + 1) }
/-- The sequencer waits. -/
def waiting (w : WaitSt) (q : Seq) : Seq := { q with wait := w }
/-- A legal jump address (19 R346). -/
def jumpOk (a : BitVec 64) : Prop := a.toNat < 2 ^ 24 ∧ a.toNat % 4 = 0
/-- What a loop head checks: END lies beyond its own bundle, the stack has room where the head pushes, and the innermost
entry does not end here (19 R347). -/
def loopOk (s : State) (fin : BitVec 12) (pushes : Bool) : Prop :=
  s.cur.len ≤ fin.toNat ∧ (pushes = true → (issuer s).seq.loops.length < 6) ∧
  ∀ e, (issuer s).seq.loops.head? = some e → e.fin ≠ s.cur.addr

end Sys2Proof.Claims

open Sys2Proof Sys2Proof.Machine Sys2Proof.Claims

/-- BR, BRP and CALL continue at the bundle a signed number of words from their own header; CALL writes the address of
the bundle that follows to lk at t + 1 (19 R346). RET and JMPS continue at the address in lk or in their register, or
take ALIGNF where that is no word address of the program space; JMPS with LINK writes lk (19 R346). -/
def Obligations.BranchesAndJumpsSetTheNextAddress : Prop :=
  (∀ (s : State) (off : BitVec 24) (p : BitVec 4) (neg : Bool) (off19 : BitVec 19), s.down = false →
    exec (.br off) s = .next (steered (fun q => { q with pc := wordsOff s.cur.addr off.toInt }) s []) ∧
    exec (.call off) s = .next (steered (fun q => { q with pc := wordsOff s.cur.addr off.toInt }) s
      [(1, .scalar false 63 (BitVec.ofNat 64 s.cur.next))]) ∧
    exec (.brp p neg off19) s = .next (steered
      (fun q => if (issuer s).rp p = !neg then { q with pc := wordsOff s.cur.addr off19.toInt } else q) s [])) ∧
  (∀ (s : State) (a : BitVec 6) (link : Bool), s.down = false →
    (jumpOk ((issuer s).rs 63) →
      exec .ret s = .next (steered (fun q => { q with pc := ((issuer s).rs 63).toNat }) s [])) ∧
    (¬ jumpOk ((issuer s).rs 63) → exec .ret s = .next (trapped s (alignf s.cur.slot ((issuer s).rs 63).toNat))) ∧
    (jumpOk ((issuer s).rs a) →
      exec (.jmps a link) s = .next (steered (fun q => { q with pc := ((issuer s).rs a).toNat }) s
        (if link then [(1, .scalar false 63 (BitVec.ofNat 64 s.cur.next))] else []))) ∧
    (¬ jumpOk ((issuer s).rs a) →
      exec (.jmps a link) s = .next (trapped s (alignf s.cur.slot ((issuer s).rs a).toNat))))

/-- LOOP, LOOPV and LOOPS push an entry that starts at the bundle that follows and ends at END; LOOPV of zero passes
over the body; LOOPS clears its exit predicate at t + 1 (19 R338, R347, R348). LEAVE passes to the bundle behind the end of the
innermost loop and pops it; with an empty stack it takes LOOPF with SUB 0xB1 (19 R347). -/
def Obligations.LoopHeadsPushAndLeavePops : Prop :=
  (∀ (s : State) (cnt fin : BitVec 12) (a : BitVec 6) (dir : Dir) (lane ex : BitVec 4) (age : Age), s.down = false →
    (loopOk s fin true →
      exec (.loop cnt fin) s = .next (steered (fun q => { q with loops :=
        ⟨s.cur.next, wordsOff s.cur.addr fin.toNat, BitVec.ofNat 32 (cnt.toNat + 1), 0, none⟩ :: q.loops }) s []) ∧
      (((issuer s).rs a).setWidth 32 ≠ (0 : BitVec 32) →
        exec (.loopv a fin) s = .next (steered (fun q => { q with loops :=
          ⟨s.cur.next, wordsOff s.cur.addr fin.toNat, ((issuer s).rs a).setWidth 32, 0, none⟩ :: q.loops }) s [])) ∧
      exec (.loops dir lane ex age fin) s = .next (steered (fun q => { q with loops :=
        ⟨s.cur.next, wordsOff s.cur.addr fin.toNat, 0, 0, some (dir, lane, ex, Age.sc age)⟩ :: q.loops }) s
        [(1, .pred ex.toNat false)])) ∧
    (loopOk s fin false → ((issuer s).rs a).setWidth 32 = (0 : BitVec 32) →
      exec (.loopv a fin) s = .next (steered (fun q =>
        { q with pc := wordsOff s.cur.addr fin.toNat, skip := true }) s []))) ∧
  (∀ (s : State), s.down = false →
    (∀ e r, (issuer s).seq.loops = e :: r →
      exec .leave s = .next (steered (fun q => { q with pc := e.fin, skip := true, loops := r }) s [])) ∧
    ((issuer s).seq.loops = [] → exec .leave s = .next (trapped s (trapAt 0x13 s.cur.addr 0xB1 0))))

/-- WALKN on a walker record of counts c0 to c3: iteration m + jk gives its four indices, of mixed radix, in wi0 to
wi3 and a true predicate, and one beyond the total a false one; the cursor j goes up by one (19 R349). -/
def Obligations.WalknGivesTheMixedRadixIndices : Prop :=
  ∀ (s : State) (p w : BitVec 4) (sc : BScope) (q c0 c1 c2 c3 : Nat), s.down = false →
    q = (walkPlace s s.cur.tile sc).1 +
      (sget 0 (issuer s).seq.walk w.toNat).toNat * (walkPlace s s.cur.tile sc).2 →
    c0 = ((walkRec s s.cur.tile w.toNat).extractLsb' 0 32).toNat →
    c1 = ((walkRec s s.cur.tile w.toNat).extractLsb' 32 32).toNat →
    c2 = ((walkRec s s.cur.tile w.toNat).extractLsb' 64 32).toNat →
    c3 = ((walkRec s s.cur.tile w.toNat).extractLsb' 96 32).toNat →
    (q < c0 * c1 * c2 * c3 → ∃ i0 i1 i2 i3 : Nat, i0 < c0 ∧ i1 < c1 ∧ i2 < c2 ∧
      i0 + c0 * (i1 + c1 * (i2 + c2 * i3)) = q ∧
      exec (.walkn p w sc) s = .next (steered (nextWalk w) s
        [(1, .scalar false 56 (BitVec.ofNat 64 i0)), (1, .scalar false 57 (BitVec.ofNat 64 i1)),
         (1, .scalar false 58 (BitVec.ofNat 64 i2)), (1, .scalar false 59 (BitVec.ofNat 64 i3)),
         (1, .pred p.toNat true)])) ∧
    (c0 * c1 * c2 * c3 ≤ q →
      exec (.walkn p w sc) s = .next (steered (nextWalk w) s [(1, .pred p.toNat false)]))

/-- ALIGN, HOLD, WAITA and BARW leave the tile waiting as they say; ALIGN to an sc that is not later takes SLIP 0xA4,
and WAITA of a misaligned word ALIGNF (19 R350, R352-R354). -/
def Obligations.WaitOperationsLeaveTheTileWaiting : Prop :=
  ∀ (s : State) (target : BitVec 48) (i a b h bar : BitVec 6) (cmp : Cmp) (w64 hm ph : Bool) (off : BitVec 20),
    s.down = false →
    (s.env.now < target.toNat →
      exec (.align target) s = .next (steered (waiting (.align target.toNat)) s [])) ∧
    (target.toNat ≤ s.env.now →
      exec (.align target) s = .next (trapped s (trapAt 0x0B s.cur.addr 0xA4 target.toNat))) ∧
    exec (.hold i) s = .next (steered (waiting (.hold i.toNat (holdEntry s s.cur.tile i.toNat).cond s.cur.addr)) s []) ∧
    (((issuer s).rs a + off.signExtend 64).toNat % (if w64 then 8 else 4) = 0 →
      exec (.waita a b cmp w64 hm h off) s = .next (steered (waiting (if hm
        then .hold h.toNat (.word ((issuer s).rs a + off.signExtend 64) cmp w64
          (if w64 then (issuer s).rs b else (issuer s).rs b &&& 0xFFFFFFFF)) s.cur.addr
        else .waita ((issuer s).rs a + off.signExtend 64) cmp w64
          (if w64 then (issuer s).rs b else (issuer s).rs b &&& 0xFFFFFFFF) s.cur.addr)) s [])) ∧
    (((issuer s).rs a + off.signExtend 64).toNat % (if w64 then 8 else 4) ≠ 0 →
      exec (.waita a b cmp w64 hm h off) s =
        .next (trapped s (alignf s.cur.slot ((issuer s).rs a + off.signExtend 64).toNat))) ∧
    exec (.barw hm ph h bar) s = .next (steered (waiting (if hm
      then .hold h.toNat (.bar ((issuer s).barOf bar) ph) s.cur.addr
      else .barw ((issuer s).barOf bar) ph s.cur.addr)) s [])

/-- BARI sets its barrier up at t + 1, and takes RESCOMBO with REASON 3 where its bed does not fit the plot or it
would regroup a barrier that governs a window; BARA adds one arrival to every member of its instance at once, an
arrival count at its largest staying there (19 R345, R351, 09 R171). -/
def Obligations.BarrierSetUpAndArrival : Prop :=
  ∀ (s : State) (bar b : BitVec 6) (sc : BScope) (arr : BitVec 16) (bedw bedh : BitVec 3), s.down = false →
    (∀ pl, s.plotOf s.cur.tile = some pl → (sc = .bed → 2 ^ bedw.toNat ≤ pl.w ∧ 2 ^ bedh.toNat ≤ pl.h) →
      ((bariF sc arr bedw bedh (((issuer s).rs b).setWidth 32)).changes ((issuer s).bar ((issuer s).barOf bar)) &&
        (issuer s).governs ((issuer s).barOf bar)) = false →
      exec (.bari bar sc arr bedw bedh b) s = .next (steered id s
        [(1, .bari ((issuer s).barOf bar) sc arr bedw bedh (((issuer s).rs b).setWidth 32))])) ∧
    (∀ pl, s.plotOf s.cur.tile = some pl → (sc = .bed ∧ (pl.w < 2 ^ bedw.toNat ∨ pl.h < 2 ^ bedh.toNat)) ∨
        ((bariF sc arr bedw bedh (((issuer s).rs b).setWidth 32)).changes ((issuer s).bar ((issuer s).barOf bar)) = true ∧
        (issuer s).governs ((issuer s).barOf bar) = true) →
      exec (.bari bar sc arr bedw bedh b) s = .next (trapped s (rescombo 3 s.cur.slot))) ∧
    ∃ t, exec (.bara bar) s = .next t ∧ t.mem = s.mem ∧ t.plots = s.plots ∧
      (∀ n, n ∉ s.members s.cur.tile ((issuer s).barOf bar) → n ≠ s.cur.tile → t.tile n = s.tile n) ∧
      ((s.members s.cur.tile ((issuer s).barOf bar)).Nodup →
        ∀ n ∈ s.members s.cur.tile ((issuer s).barOf bar),
          ((t.tile n).bar ((issuer s).barOf bar)).arrCnt.toNat =
            Nat.min (((s.tile n).bar ((issuer s).barOf bar)).arrCnt.toNat + 1) 0xFFFF)

/-- FENCE orders the dynamic accesses made so far, SAVEPT sends its item at t + 1, and MARK writes its record, at once
or, where SPLIT is 2, with the value that it has latched, on plot pulse 3 of its sc; each changes nothing else of its
tile (19 R357, R359, 28 R457). LEASE sends its request, which is pending from t + 1 on, with the pulses asked for, the
duration and the cap that it names, unless a lower rank has asked in the same sc (28 R463, R464). FENCE holds from its
issue on (DEDUCED, log entry 25). -/
def Obligations.FenceSaveptMarkAndLease : Prop :=
  (∀ (s : State) (sc : Scope) (item : BitVec 4) (a : BitVec 6) (tag : BitVec 16) (pulses : BitVec 5) (dur : BitVec 19)
    (cap : BitVec 20), s.down = false →
    exec (.fence sc) s = .next (begunWith (fun t =>
      { t with fences := t.fences ++ [(t.dynNo, s.env.now)], seq := { t.seq with ctl := .none } }) s []) ∧
    exec (.savept item a) s = .next (steered id s [(1, .savept item.toNat (((issuer s).rs a).setWidth 32))]) ∧
    ((∀ pl, s.plotOf s.cur.tile = some pl → pl.split ≠ 2) →
      exec (.mark a tag) s = .next ((s.tileRecord s.cur.tile 0x50 tag.toNat ((issuer s).rs a).toNat).setTile s.cur.tile
        ((issuer s).mapSeq (fun q => { q with ctl := .none })).nextSeq)) ∧
    (∀ pl, s.plotOf s.cur.tile = some pl → pl.split = 2 →
      exec (.mark a tag) s = .next (begunWith (fun t =>
        { t with marks := t.marks ++ [(3, tag.toNat, ((issuer s).rs a).toNat)], seq := { t.seq with ctl := .none } }) s
        [])) ∧
    exec (.lease pulses dur cap) s = .next (steered id s [(1, .lease pulses.toNat dur.toNat cap.toNat)])) ∧
  (∀ (s : State) (n k pulses us uj rank : Nat) (pl : Plot) (p : Pend) (r : List Pend), s.down = false →
    (s.tile n).pend = p :: r → p.due ≤ s.now n → p.rank < 5 → p.act = .lease pulses us uj →
    (s.tile n).plot = some k → afind s.plots k = some pl → rank = (s.tile n).ly * pl.w + (s.tile n).lx →
    (¬ (pl.lease.state = 1 ∧ pl.lease.again = false ∧ pl.lease.askSc = p.due - 1 ∧ pl.lease.askRank < rank) →
      ∃ t pl', exec (.exposedResultLands n) s = .next t ∧ afind t.plots k = some pl' ∧
        pl'.lease = { Lease.reset with
          state := 1, ask := pulses, us := us, uj := uj, askSc := p.due - 1, askRank := rank } ∧
        pl'.lease.pulses = 0 ∧ pl' = { pl with lease := pl'.lease } ∧ (t.tile n).pend = r ∧
        (t.tile n).regs = (s.tile n).regs) ∧
    (pl.lease.state = 1 → pl.lease.again = false → pl.lease.askSc = p.due - 1 → pl.lease.askRank < rank →
      ∃ t, exec (.exposedResultLands n) s = .next t ∧ t.plots = s.plots ∧ (t.tile n).pend = r))

/-- OVL of a page that is resident counts 4,096 bytes and one arrival into its barrier at t + 1; of a page beyond the
image it counts FETCH with 0xCB; of another page it empties the frame and begins the load (19 R360). -/
def Obligations.OverlayOperationBeginsItsLoad : Prop :=
  ∀ (s : State) (page : BitVec 12) (frame : BitVec 5) (bar : BitVec 6), s.down = false →
    (((issuer s).frameOf (s.imageOf s.cur.tile) page.toNat).isSome →
      exec (.ovl page frame bar) s = .next (steered id s [(1, .count ((issuer s).barOf bar) 1 4096 0 0)])) ∧
    ((issuer s).frameOf (s.imageOf s.cur.tile) page.toNat = none → page.toNat < s.codePages s.cur.tile →
      exec (.ovl page frame bar) s = .next (steered (fun q => { q with
        ftags := sset 0 q.ftags frame.toNat 0
        ovls := q.ovls ++ [⟨page.toNat, frame.toNat, (issuer s).barOf bar, s.cur.addr, (issuer s).dynNo, []⟩] }) s [])) ∧
    ((issuer s).frameOf (s.imageOf s.cur.tile) page.toNat = none → s.codePages s.cur.tile ≤ page.toNat →
      exec (.ovl page frame bar) s = .next (steered (fun q => { q with ftags := sset 0 q.ftags frame.toNat 0 }) s
        [(1, .count ((issuer s).barOf bar) 1 0 0x04 0xCB)]))

/-- TRAP takes TRAP with its code and SYSC takes SYSC with its code, at their own bundle (27 R432, 19 R358). ERET in
supervisor mode returns to user mode at TPC, issue REPIDX, with the loop stack and the re-issue registers from their
shadows and SKIP from TCAUSE, and leaves every register file alone; in user mode it takes PRIV (27 R437). On a plot of
more than one tile ERET does the same (DEDUCED, log entry 21). -/
def Obligations.TrapSyscAndEret : Prop :=
  (∀ (s : State) (code : BitVec 16), s.down = false →
    exec (.trap code) s = .next (trapped s ⟨0x14, code.setWidth 64, false⟩) ∧
    exec (.sysc code) s = .next (trapped s ⟨0x15, code.setWidth 64, false⟩)) ∧
  (∀ (s : State), s.down = false →
    ((issuer s).trap.sup = true → ∃ t, exec .eret s = .next (s.setTile s.cur.tile t) ∧
      t.trap.sup = false ∧ t.seq.pc = (issuer s).trap.tpc.toNat % 2 ^ 24 ∧
      t.seq.rep = ((issuer s).trap.tcause.extractLsb' 8 8).toNat ∧ t.seq.skip = (issuer s).trap.tcause.getLsbD 16 ∧
      t.seq.loops = (issuer s).trap.shadowLoops ∧ t.seq.reissue = (issuer s).trap.shadowRe ∧ t.seq.wait = .none ∧
      t.regs = (issuer s).regs ∧ t.vault = (issuer s).vault ∧ t.pend = (issuer s).pend ∧
      t.trap.tcause = (issuer s).trap.tcause ∧ t.trap.evec = (issuer s).trap.evec) ∧
    ((issuer s).trap.sup = false → exec .eret s = .next (trapped s (priv s.cur.slot))))

/-- A trap taken in user mode with nothing under way: TCAUSE holds the code, the issue and SKIP, TPC the bundle, TVAL
and TSCYC the trap's value and sc; the loop stack and the re-issue registers pass to their shadows; the tile is in
supervisor mode at the monitor's entry; every register file and every accumulator is as before (27 R431, R434), and
the engine holds no work, its steps having completed in the drain (DESIGN CHOICE, log entry 56). A trap in supervisor mode
halts the tile (27 R436). -/
def Obligations.ATrapEntersTheMonitorOrHalts : Prop :=
  (∀ (s : State) (n : Nat) (tr : Trap) (pc rep : Nat), (s.tile n).trap.sup = false → (s.tile n).pend = [] →
    pc < 2 ^ 24 → rep < 2 ^ 8 →
    ∃ t, (s.takeTrap n tr pc rep).tile n = t ∧
      t.trap.tcause.extractLsb' 0 8 = tr.code ∧ (t.trap.tcause.extractLsb' 8 8).toNat = rep ∧
      t.trap.tcause.getLsbD 16 = tr.skip ∧ t.trap.tcause.extractLsb' 17 47 = 0 ∧
      t.trap.tpc.toNat = pc ∧ t.trap.tval = tr.tval ∧ t.trap.tscyc = BitVec.ofNat 64 (s.now n) ∧
      t.trap.evec = (s.tile n).trap.evec ∧ t.trap.sup = true ∧ t.trap.halted = (s.tile n).trap.halted ∧
      t.trap.shadowLoops = (s.tile n).seq.loops ∧ t.trap.shadowRe = (s.tile n).seq.reissue ∧
      t.seq.loops = [] ∧ t.seq.reissue = [] ∧ t.seq.pc = (s.tile n).trap.evec.toNat % 2 ^ 24 ∧ t.seq.rep = 0 ∧
      t.seq.wait = .none ∧ t.regs = (s.tile n).regs ∧ t.mx = Mx.reset) ∧
  (∀ (s : State) (n : Nat) (tr : Trap) (pc rep : Nat), (s.tile n).trap.sup = true → (s.tile n).pend = [] →
    ∃ t, (s.takeTrap n tr pc rep).tile n = t ∧ t.trap.halted = true ∧ t.seq.ended = true ∧
      t.trap.first.map (·.1) = some tr.code ∧ t.regs = (s.tile n).regs ∧
      t.trap.tcause = (s.tile n).trap.tcause ∧ t.trap.tpc = (s.tile n).trap.tpc ∧ t.trap.tval = (s.tile n).trap.tval)

namespace Sys2Proof.Claims
open Sys2Proof.Machine

/-! ### Vector slots, functions and directions (14 R253-R280, 15 R281-R299) -/

/-- Effects of one sc. -/
def at_ (lat : Nat) (l : List Act) : List (Nat × Act) := l.map (fun a => (lat, a))
/-- A float element operation: the exact result rounded once into the format (14 R261). -/
def roundedAs (fmt : Fmt) (m : Rm) (sat : Bool) (r : Machine.Num × Flags) : Nat × Flags :=
  ((roundFmt (flOf fmt) m sat 0 r.1).1, r.2 ||| (roundFmt (flOf fmt) m sat 0 r.1).2)
/-- A bitwise or count result, which raises no flag. -/
def plain (x : Nat) : Nat × Flags := (x, fNone)
/-- All ones where a compare holds. -/
def mask (fmt : Fmt) (b : Bool) : Nat := if b then 2 ^ fmtWidth fmt - 1 else 0
/-- Float arithmetic where the format is FL, integer arithmetic wrapped or clamped where it is IN (14 R261). -/
def arithElem (f : VArith) (m : Rm) (fl : Machine.Num → Machine.Num → Machine.Num × Flags) (int : Int → Int → Int) : EFn := fun _ a b _ =>
  if Fmt.isFl f.fmt then roundedAs f.fmt m f.sat (fl (elemValue f.fmt a) (elemValue f.fmt b))
  else wrapsat f.fmt f.sat (int (inVal f.fmt a) (inVal f.fmt b))
/-- A compare: false on a NaN; NV for any NaN, or for a signalling one alone where the compare is quiet (14 R262). -/
def compareElem (fmt : Fmt) (quiet : Bool) (fl : Machine.Num → Machine.Num → Bool) (int : Int → Int → Bool) : EFn := fun _ a b _ =>
  if Fmt.isFl fmt then
    let x := elemValue fmt a
    let y := elemValue fmt b
    (mask fmt (!(x.isNan || y.isNan) && fl x y),
      if (if quiet then x.isSNan || y.isSNan else x.isNan || y.isNan) then fNV else fNone)
  else (mask fmt (int (inVal fmt a) (inVal fmt b)), fNone)
/-- An elementwise operation: latency, format, whether the operation takes it, views, and the result and flags of an
element from its index and the elements of A, B and the destination (14 R260-R263, R279). -/
structure ElemOp where
  lat : Nat
  fmt : Fmt
  ok : Bool
  dst : View
  a : View
  b : View
  g : EFn
def functionOp (t : Tile) (f : FUn) (g : Machine.Num → Machine.Num × Flags) : ElemOp :=
  ⟨12, f.fmt, Fmt.isFl f.fmt && f.rm != .sr, f.dst, f.a, f.a,
    fun _ a _ _ => roundedAs f.fmt (t.rmDet f.rm) false (g (elemValue f.fmt a))⟩
def elementRow (t : Tile) : Instr → Option ElemOp
  | .vadd f => some ⟨2, f.fmt, Fmt.isFlIn f.fmt && f.rm != .sr, f.dst, f.a, f.b,
      arithElem f (t.rmDet f.rm) (addNum (t.rmDet f.rm == .rd)) (· + ·)⟩
  | .vsub f => some ⟨2, f.fmt, Fmt.isFlIn f.fmt && f.rm != .sr, f.dst, f.a, f.b,
      arithElem f (t.rmDet f.rm) (fun x y => addNum (t.rmDet f.rm == .rd) x (if y.isNan then y else y.negate)) (· - ·)⟩
  | .vmul f => some ⟨4, f.fmt, Fmt.isFlIn f.fmt && f.rm != .sr, f.dst, f.a, f.b,
      arithElem f (t.rmDet f.rm) mulNum (· * ·)⟩
  | .vfma f => some ⟨4, f.fmt, Fmt.isFl f.fmt && f.rm != .sr, f.dst, f.a, f.b, fun _ a b d =>
      roundedAs f.fmt (t.rmDet f.rm) f.sat (fmaNum (t.rmDet f.rm == .rd) (elemValue f.fmt a) (elemValue f.fmt b)
        (elemValue f.fmt d))⟩
  | .vmin f => some ⟨2, f.fmt, Fmt.isFlIn f.fmt, f.dst, f.a, f.b, minMax false f⟩
  | .vmax f => some ⟨2, f.fmt, Fmt.isFlIn f.fmt, f.dst, f.a, f.b, minMax true f⟩
  | .vabs f => some ⟨2, f.fmt, Fmt.isSignOp f.fmt, f.dst, f.a, f.a, fun _ a _ _ =>
      if Fmt.isFl f.fmt then plain (a % 2 ^ (fmtWidth f.fmt - 1)) else wrapsat f.fmt f.sat (inVal f.fmt a).natAbs⟩
  | .vneg f => some ⟨2, f.fmt, Fmt.isSignOp f.fmt, f.dst, f.a, f.a, fun _ a _ _ =>
      if Fmt.isFl f.fmt then
        plain (if a < 2 ^ (fmtWidth f.fmt - 1) then a + 2 ^ (fmtWidth f.fmt - 1) else a - 2 ^ (fmtWidth f.fmt - 1))
      else wrapsat f.fmt f.sat (-(inVal f.fmt a))⟩
  | .vand f => some ⟨2, f.fmt, f.fmt == .i32, f.dst, f.a, f.b, fun _ a b _ => plain (a &&& b)⟩
  | .vor f => some ⟨2, f.fmt, f.fmt == .i32, f.dst, f.a, f.b, fun _ a b _ => plain (a ||| b)⟩
  | .vxor f => some ⟨2, f.fmt, f.fmt == .i32, f.dst, f.a, f.b, fun _ a b _ => plain (a ^^^ b)⟩
  | .vshl f => some ⟨2, f.fmt, Fmt.isIn f.fmt, f.dst, f.a, f.b, fun _ a c _ =>
      plain (if c < fmtWidth f.fmt then a * 2 ^ c % 2 ^ fmtWidth f.fmt else 0)⟩
  | .vshr f => some ⟨2, f.fmt, Fmt.isIn f.fmt, f.dst, f.a, f.b, fun _ a c _ =>
      plain (if c < fmtWidth f.fmt then a / 2 ^ c else 0)⟩
  | .vsar f => some ⟨2, f.fmt, Fmt.isIn f.fmt, f.dst, f.a, f.b, fun _ a c _ =>
      plain (lowBits (fmtWidth f.fmt) (intVal (fmtWidth f.fmt) true a / 2 ^ Nat.min c (fmtWidth f.fmt)))⟩
  | .vsel f => some ⟨2, f.fmt, Fmt.isAny f.fmt, f.dst, f.a, f.b, fun _ a b d => plain (if d = 0 then b else a)⟩
  | .vcmpeq f => some ⟨2, f.fmt, Fmt.isFlIn f.fmt, f.dst, f.a, f.b, compareElem f.fmt true eqNum (fun x y => x == y)⟩
  | .vcmplt f => some ⟨2, f.fmt, Fmt.isFlIn f.fmt, f.dst, f.a, f.b,
      compareElem f.fmt false ltNum (fun x y => decide (x < y))⟩
  | .vcmple f => some ⟨2, f.fmt, Fmt.isFlIn f.fmt, f.dst, f.a, f.b,
      compareElem f.fmt false (fun x y => !ltNum y x) (fun x y => decide (x ≤ y))⟩
  | .vmov fmt d a _ => some ⟨2, fmt, fmt == .f32, d, a, a, fun _ a _ _ => plain a⟩
  | .vbcs fmt d a _ => some ⟨2, fmt, Fmt.isAny fmt, d, d, d, fun _ _ _ _ => plain (canonElem fmt (t.rs a).toNat)⟩
  | .viota fmt d a b _ => some ⟨2, fmt, Fmt.isIn fmt, d, d, d, fun e _ _ _ =>
      plain (((t.rs a).toNat + e * (t.rs b).toNat) % 2 ^ fmtWidth fmt)⟩
  | .vmulh f => some ⟨4, f.fmt, Fmt.isIn f.fmt, f.dst, f.a, f.b, fun _ a b _ =>
      plain (lowBits (fmtWidth f.fmt) (inVal f.fmt a * inVal f.fmt b / 2 ^ fmtWidth f.fmt))⟩
  | .frcp f => some (functionOp t f rcpNum)
  | .frsq f => some (functionOp t f rsqNum)
  | .fsqrt f => some (functionOp t f sqrtNum)
  | .fexp2 f => some (functionOp t f exp2Num)
  | .flog2 f => some (functionOp t f log2Num)
  | .fsin f => some (functionOp t f sinNum)
  | .fcos f => some (functionOp t f cosNum)
  | .ftanh f => some (functionOp t f tanhNum)
  | .fsigm f => some (functionOp t f sigmNum)
  | .fdiv fmt rm d a b _ => some ⟨12, fmt, Fmt.isFl fmt && rm != .sr, d, a, b, fun _ a b _ =>
      roundedAs fmt (t.rmDet rm) false (divNum (elemValue fmt a) (elemValue fmt b))⟩
  | _ => none
/-- A panel-axis operation by rows: its operands and the index of the element that element e takes from A (14 R273). -/
def rowAxisRow : Instr → Option (VShift × (Nat → Nat → Nat))
  | .vrotr f => some (f, fun k e => (e + k) % perRow f.fmt)
  | .vbcr f => some (f, fun k _ => k % perRow f.fmt)
  | _ => none
/-- A panel-axis operation by columns: its operands, the panels of A it reads, its largest amount, and the row of A that
row i of the destination panel takes (14 R274). -/
def colAxisRow : Instr → Option (VShift × Nat × Nat × (Nat → Nat → Nat))
  | .vrotc f => some (f, 1, 127, fun k i => (i + k) % 16)
  | .vbcc f => some (f, 1, 127, fun k _ => k % 16)
  | .vshfc f => some (f, 2, 16, fun k i => i + Nat.min k 16)
  | _ => none
/-- The legal operands of a column-axis operation. -/
def colAxisOk (t : Tile) (f : VShift) (panels lim : Nat) : Prop :=
  f.fmt = .f32 ∧ viewIsPanel f.dst = true ∧ viewIsPanel f.a = true ∧
  viewRowNo f.a + 16 * panels ≤ 16 * t.panels ∧ amtAbove lim f.amt = false
/-- Legal views of a conversion into part p (14 R265). -/
def cvtOk (f : VCvt) : Prop :=
  viewIsRow f.dst = true ∧ (viewIsRow f.a = true ∨ viewIsSpec f.a = true) ∧ f.part.toNat < cvtParts f.sfmt f.fmt
/-- The flags that several results raise together. -/
def allFlags (l : List Flags) : Flags := l.foldl (· ||| ·) fNone
/-- Cell j of a VMADW: the products of its elements, or the one that sel names, added into the cell as a signed 32-bit
integer, wrapped or clamped (14 R263). -/
def madwCell (t : Tile) (fmt : Fmt) (sat : Bool) (sel : BitVec 3) (dst a b : View) (j : Nat) : Nat × Flags :=
  let prod (k : Nat) : Int := inVal fmt (elemAt fmt (t.view a) (perCell fmt * j + k)) *
    inVal fmt (elemAt fmt (t.view b) (perCell fmt * j + k))
  intToInt 32 true sat (intVal 32 true (rowCell (t.view dst) j) +
    (if sel = 7 then ((List.range (perCell fmt)).map prod).sum else prod sel.toNat))
/-- Cell j of a VSACC: the cell plus that of A times the power of two of its scale byte, rounded once; a scale of 255
gives a NaN (14 R267). -/
def saccCell (t : Tile) (m : Rm) (sat uni : Bool) (dst a b : View) (j : Nat) : Nat × Flags :=
  let k : Nat := (t.view b).toNat / 2 ^ (8 * (if uni then 0 else j)) % 2 ^ 8
  if k = 255 then (0x7FC00000, fNV)
  else roundedAs .f32 m sat (addNum (m == .rd) (elemValue .f32 (rowCell (t.view dst) j))
    ((elemValue .f32 (rowCell (t.view a) j)).scale ((k : Int) - 127)))
/-- The element of the source that element e of a conversion takes (14 R265). -/
def cvtFrom (f : VCvt) (v : Row) (e : Nat) : Nat :=
  elemAt f.sfmt v (if fmtWidth f.sfmt < fmtWidth f.fmt then f.part.toNat * cvtElems f.sfmt f.fmt + e else e)
/-- The elements of a conversion with the draw that each takes, zero where the rounding takes none (14 R265, R271). -/
def cvtIn (t : Tile) (f : VCvt) : List (Nat × Nat) :=
  ((List.range (cvtElems f.sfmt f.fmt)).map (cvtFrom f (t.view f.a))).zip
    (if t.rmAny f.rm = .sr then t.draws (cvtElems f.sfmt f.fmt) else List.replicate (cvtElems f.sfmt f.fmt) 0)
/-- The results of a conversion with their flags. -/
def cvtOut (t : Tile) (f : VCvt) : List (Nat × Flags) :=
  (cvtIn t f).map (fun p => convert f.sfmt f.fmt (t.rmAny f.rm) f.sat p.2 p.1)
/-- The row of a conversion's results, at the part of the destination that it writes (14 R265). -/
def cvtInto (f : VCvt) (ys : List Nat) : Row :=
  rowFrom f.fmt (if fmtWidth f.fmt < fmtWidth f.sfmt then f.part.toNat * cvtElems f.sfmt f.fmt else 0) ys
/-- What a VCVTEF leaves in its source and the flags of each element (12 R237, 14 R266). -/
def cvtLeft (t : Tile) (f : VCvt) : List (Nat × Flags) :=
  (cvtIn t f).map (fun p =>
    let y := convert .f32 f.fmt (t.rmAny f.rm) f.sat p.2 p.1
    ((residual (flOf f.fmt) p.1 y.1 y.2).1, y.2 ||| (residual (flOf f.fmt) p.1 y.1 y.2).2))
/-- The advance of the generator that a stochastic conversion makes (14 R271). -/
def cvtAdvances (t : Tile) (f : VCvt) : List (Nat × Act) :=
  if t.rmAny f.rm = .sr then [(1, .rng (16 * ((cvtElems f.sfmt f.fmt + 63) / 64)))] else []
/-- Formats of a conversion, and the operands of a VCVT and of a VCVTEF (14 R264-R266). -/
def cvtFmts (f : VCvt) : Prop := Fmt.isAny f.fmt = true ∧ Fmt.isAny f.sfmt = true ∧ f.fmt ≠ f.sfmt
def efFmts (f : VCvt) : Prop := f.sfmt = .f32 ∧ f.fmt ≠ .f32 ∧ (floatOf f.fmt).isSome
def efOk (f : VCvt) : Prop :=
  viewIsRow f.dst = true ∧ viewIsRow f.a = true ∧ f.a ≠ f.dst ∧ f.part.toNat < cvtParts f.sfmt f.fmt
/-- A scalar division by zero gives all ones, and a remainder by zero the dividend; the least number divided by -1 wraps
(14 R280). -/
def divisionRow (t : Tile) : Instr → Option (SDiv × BitVec 64)
  | .sdiv f => some (f, if t.rs f.b = 0 then -1 else (t.rs f.a).sdiv (t.rs f.b))
  | .sdivu f => some (f, if t.rs f.b = 0 then -1 else (t.rs f.a) / (t.rs f.b))
  | .srem f => some (f, if t.rs f.b = 0 then t.rs f.a else (t.rs f.a).srem (t.rs f.b))
  | .sremu f => some (f, if t.rs f.b = 0 then t.rs f.a else (t.rs f.a) % (t.rs f.b))
  | _ => none
/-- The effects that form a group from components, a norm and flags, the components lc and the norm ln after the issue
(15 R290). -/
def groupEffects (d k lc ln : Nat) (r : List Int × Word32 × Flags) : List (Nat × Act) :=
  at_ lc (writeComps d k r.1) ++ at_ ln (writeNorm d k r.2.1 ++ [.flags r.2.2])
/-- An operation on groups that forms a group: the first register and the number of registers of its destination, the
latencies of its components and of its norm, and what it forms (15 R290, R297-R299). -/
structure GroupOp where
  d : Nat
  k : Nat
  lc : Nat
  ln : Nat
  r : List Int × Word32 × Flags
def groupRow (t : Tile) : Instr → Option GroupOp
  | .dadd f => some ⟨f.d.toNat, f.g.size, 8 + 2 * f.g.size, 10 + 2 * f.g.size,
      mixGroups 65536 (t.group f.a.toNat f.g.size) 65536 (t.group f.b.toNat f.g.size)⟩
  | .dsub f => some ⟨f.d.toNat, f.g.size, 8 + 2 * f.g.size, 10 + 2 * f.g.size,
      mixGroups 65536 (t.group f.a.toNat f.g.size) (-65536) (t.group f.b.toNat f.g.size)⟩
  | .dmix f => some (
      let w := clampInt 0 65536 (t.q16 f.b)
      let r := mixGroups (65536 - w) (t.group f.d.toNat f.g.size) w (t.group f.a.toNat f.g.size)
      ⟨f.d.toNat, f.g.size, 8 + 2 * f.g.size, 10 + 2 * f.g.size,
        (r.1, r.2.1, r.2.2 ||| if w ≠ t.q16 f.b then fSAT else fNone)⟩)
  | .dproj f => some ⟨f.d.toNat, f.g.size, 12 + 2 * f.g.size, 14 + 2 * f.g.size,
      projGroups (t.group f.a.toNat f.g.size) (t.group f.b.toNat f.g.size)⟩
  | .dmov f => some (
      let x := t.group f.a.toNat f.g.size
      ⟨f.d.toNat, f.g.size, 2, 2, (if x.1 = .nan true then x.2.map (fun _ => 0) else x.2), x.1.word, x.1.memFlag⟩)
  | .dneg f => some (
      let x := t.group f.a.toNat f.g.size
      ⟨f.d.toNat, f.g.size, 2, 2, (if x.1 = .nan true then x.2.map (fun _ => 0) else x.2.map (fun c => -c)), x.1.word,
        x.1.memFlag⟩)
  | _ => none
/-- An operation on directions with other results: its effects (15 R294-R297). -/
def directionRow (t : Tile) : Instr → Option (List (Nat × Act))
  | .ddot f =>
      let r := ddotOf false (t.group f.a.toNat f.g.size) (t.group f.b.toNat f.g.size)
      some (at_ (6 + f.g.size) [t.wScalar f.d (BitVec.ofNat 64 r.1), .flags r.2])
  | .ddotn f =>
      let r := ddotOf true (t.group f.a.toNat f.g.size) (t.group f.b.toNat f.g.size)
      some (at_ (6 + f.g.size) [t.wScalar f.d (BitVec.ofNat 64 r.1), .flags r.2])
  | .dscl f =>
      let r := dsclOf (t.normOf f.d.toNat) (t.q16 f.a)
      some (at_ 1 [.norm f.d.toNat r.1, .flags r.2])
  | .dzt _ p a _ => some [(2, .pred p.toNat (t.normOf a.toNat == normZero))]
  | .dgetn f => some [(2, t.wScalar f.d ((t.normOf f.a.toNat).signExtend 64))]
  | .dsetn f => some [(1, .norm f.d.toNat ((t.rs f.a).setWidth 32))]
  | _ => none
/-- The RESCOMBO reason of DNORM and DCVT: 0 for a format that is none of FL, 3 for an operand that is no row view or
whose rows leave the panels (15 R289). -/
def runReason (t : Tile) (fmt : Fmt) (k : Nat) (v : View) : Option Nat :=
  if Fmt.isFl fmt = false then some 0
  else if viewIsRow v = false ∨ 16 * t.panels < viewRowNo v + rowsOf fmt k then some 3 else none

/-- The greatest float of a row, or the least, with its lane, the lowest among equals: the first NaN where there is one,
with NV for a signalling one (14 R278). -/
def argFloat (mn : Bool) (v : Row) : (Nat × Nat) × Flags :=
  let xs := (List.range 64).map (fun j => (rowCell v j, j))
  match xs.find? (fun p => (elemValue .f32 p.1).isNan) with
  | some p => (p, if (elemValue .f32 p.1).isSNan then fNV else fNone)
  | none => (argBest (fun x y => ltZero (elemValue .f32 (if mn then y else x)) (elemValue .f32 (if mn then x else y))) xs,
      fNone)
/-- The elements of a run of rows, as numbers. -/
def runOf (t : Tile) (fmt : Fmt) (k : Nat) (v : View) : List Machine.Num :=
  (List.range (128 * k)).map (fun i =>
    elemValue fmt (elemAt fmt (t.vrow (viewRowNo v + i / perRow fmt)) (i % perRow fmt)))
/-- The components, norm and flags that DNORM forms of numbers: the NaN code for a NaN, the infinite code with the signs
of the infinite elements, else the unit vector of the exact elements (15 R292). -/
def normed (xs : List Machine.Num) : List Int × Word32 × Flags :=
  if xs.any Machine.Num.isNan = true then (xs.map (fun _ => 0), normNan, anySig xs)
  else if xs.any Machine.Num.isInf = true then
    ((renorm (xs.map infUnit) 0 0).1, normInf, (renorm (xs.map infUnit) 0 0).2.2)
  else renorm (xs.map fix149) (-149) 0
/-- The element that DCVT writes for a component of a group of a code, and its flags (15 R293). -/
def dcvtElem (fmt : Fmt) (code : DCode) (c : Int) : Nat × Flags :=
  match code with
  | .fin l => roundFmt (flOf fmt) .rne false 0 (scaled l c (-15))
  | .zero => (0, fZD)
  | .inf => (if c = 0 then 0 else (roundFmt (flOf fmt) .rne false 0 (.inf (decide (c < 0)))).1, fNone)
  | .nan mem => ((roundFmt (flOf fmt) .rne false 0 .dnan).1, if mem then fNV else fNone)
/-- The row of elements that DCVT writes at a row of its run. -/
def dcvtRow (fmt : Fmt) (ys : List Nat) (i : Nat) : Row :=
  rowFrom fmt 0 ((ys.drop (perRow fmt * i)).take (perRow fmt))

end Sys2Proof.Claims

open Sys2Proof Sys2Proof.Machine Sys2Proof.Claims

/-- The elementwise operations of the vector slots and the functions of the F slot write the lanes of their
destination view and their flags after their latency, in a legal format; in another format, or under stochastic
rounding, they take RESCOMBO with REASON 0. They change nothing else (14 R253-R263, R279; DEDUCED for NV of VFMA, log
entry 18, and for the precision of the functions, log entry 10). -/
def Obligations.ElementwiseOperationsWriteTheirLanes : Prop :=
  ∀ (s : State) (i : Instr) (o : ElemOp), s.down = false → elementRow (issuer s) i = some o →
    (o.ok = true → exec i s = .next (begun s (at_ o.lat
      (viewWrite o.dst allLanes (elemRow o.fmt (viewLanes o.dst) o.g ((issuer s).view o.a) ((issuer s).view o.b)
        ((issuer s).view o.dst)).1 ++
       [.flags (elemRow o.fmt (viewLanes o.dst) o.g ((issuer s).view o.a) ((issuer s).view o.b)
        ((issuer s).view o.dst)).2])))) ∧
    (o.ok = false → exec i s = .next (trapped s (rescombo 0 s.cur.slot)))

/-- VADD, VSUB, VMUL, VMIN, VMAX, VAND, VOR, VXOR and VMULH on 32-bit integers in row views: every cell of the result
is the spec's function of the cells of A and B, modulo 2^32 where nothing saturates (14 R261). -/
def Obligations.IntegerVectorCellsHoldTheirResults : Prop :=
  ∀ (s : State) (d a b : BitVec 10) (r : BitVec 3), s.down = false →
    ∀ (i : Instr) (lat : Nat) (g : Nat → Nat → Nat),
      (i, lat, g) ∈ [
        (Instr.vadd ⟨.u32, .rne, false, .row d, .row a, .row b, r⟩, 2, fun x y => (x + y) % 2 ^ 32),
        (Instr.vadd ⟨.i32, .rne, false, .row d, .row a, .row b, r⟩, 2, fun x y => (x + y) % 2 ^ 32),
        (Instr.vsub ⟨.i32, .rne, false, .row d, .row a, .row b, r⟩, 2, fun x y => (x + 2 ^ 32 - y) % 2 ^ 32),
        (Instr.vmul ⟨.i32, .rne, false, .row d, .row a, .row b, r⟩, 4, fun x y => x * y % 2 ^ 32),
        (Instr.vmulh ⟨.u32, .row d, .row a, .row b, r⟩, 4, fun x y => x * y / 2 ^ 32),
        (Instr.vmin ⟨.u32, .row d, .row a, .row b, r⟩, 2, fun x y => Nat.min x y),
        (Instr.vmax ⟨.u32, .row d, .row a, .row b, r⟩, 2, fun x y => Nat.max x y),
        (Instr.vand ⟨.i32, .row d, .row a, .row b, r⟩, 2, fun x y => x &&& y),
        (Instr.vor ⟨.i32, .row d, .row a, .row b, r⟩, 2, fun x y => x ||| y),
        (Instr.vxor ⟨.i32, .row d, .row a, .row b, r⟩, 2, fun x y => x ^^^ y)] →
      ∃ v : Row, exec i s = .next (begun s [(lat, .cells d.toNat allLanes v), (lat, .flags fNone)]) ∧
        ∀ c < 64, rowCell v c = g (rowCell ((issuer s).vrow a.toNat) c) (rowCell ((issuer s).vrow b.toNat) c)

/-- VMADW, VSACC and VRNG complete in the formats and operands that they take, with the cells, the flags and the draws
of their rules, and change nothing else; in others they take RESCOMBO (14 R263, R267-R270). VCVT and VCVTEF complete:
they write the cells of the part of their destination row, VCVTEF the residuals into its source row too, and a
stochastic one advances the generator; formats or operands that they do not take give RESCOMBO (14 R264-R266, R271; the
flags of a residual are DEDUCED, log entry 19). -/
def Obligations.AccumulationRandomAndConversions : Prop :=
  (∀ (s : State) (fmt : Fmt) (rm : Rm) (sat uni : Bool) (sel : BitVec 3) (dst a b : View) (r : BitVec 3),
    s.down = false →
    (Fmt.isMadw fmt = true → sel = 7 ∨ sel.toNat < perCell fmt →
      exec (.vmadw fmt sat sel dst a b r) s = .next (begun s (at_ 4 (
        viewWrite dst allLanes (rowFrom .i32 0 ((List.range (viewLanes dst)).map (fun j =>
          (madwCell (issuer s) fmt sat sel dst a b j).1))) ++
        [.flags (allFlags ((List.range (viewLanes dst)).map (fun j =>
          (madwCell (issuer s) fmt sat sel dst a b j).2)))]))) ∧
      (sat = false → ∀ c < viewLanes dst, (madwCell (issuer s) fmt sat sel dst a b c).1 =
          (((rowCell ((issuer s).view dst) c : Int) + (if sel = 7
            then ((List.range (perCell fmt)).map (fun k =>
              inVal fmt (elemAt fmt ((issuer s).view a) (perCell fmt * c + k)) *
              inVal fmt (elemAt fmt ((issuer s).view b) (perCell fmt * c + k)))).sum
            else inVal fmt (elemAt fmt ((issuer s).view a) (perCell fmt * c + sel.toNat)) *
              inVal fmt (elemAt fmt ((issuer s).view b) (perCell fmt * c + sel.toNat)))) % 2 ^ 32).toNat)) ∧
    (Fmt.isMadw fmt = false → exec (.vmadw fmt sat sel dst a b r) s = .next (trapped s (rescombo 0 s.cur.slot))) ∧
    (Fmt.isMadw fmt = true → sel ≠ 7 → perCell fmt ≤ sel.toNat →
      exec (.vmadw fmt sat sel dst a b r) s = .next (trapped s (rescombo 3 s.cur.slot))) ∧
    (rm ≠ .sr → viewIsRow b = true ∨ viewIsSpec b = true →
      exec (.vsacc .f32 rm sat uni dst a b r) s = .next (begun s (at_ 4 (
        viewWrite dst allLanes (rowFrom .f32 0 ((List.range (viewLanes dst)).map (fun j =>
          (saccCell (issuer s) ((issuer s).rmDet rm) sat uni dst a b j).1))) ++
        [.flags (allFlags ((List.range (viewLanes dst)).map (fun j =>
          (saccCell (issuer s) ((issuer s).rmDet rm) sat uni dst a b j).2)))])))) ∧
    (fmt ≠ .f32 ∨ rm = .sr → exec (.vsacc fmt rm sat uni dst a b r) s = .next (trapped s (rescombo 0 s.cur.slot))) ∧
    (rm ≠ .sr → viewIsRow b = false → viewIsSpec b = false →
      exec (.vsacc .f32 rm sat uni dst a b r) s = .next (trapped s (rescombo 3 s.cur.slot))) ∧
    exec (.vrng .u32 dst r) s = .next (begun s (at_ 6 (viewWrite dst allLanes (rowFrom .u32 0 ((issuer s).draws 64)))
      ++ [(1, .rng 16)])) ∧
    exec (.vrng .f32 dst r) s = .next (begun s (at_ 6 (viewWrite dst allLanes
      (rowFrom .u32 0 (((issuer s).draws 64).map (fun w =>
        (roundFmt fp32 .rne false 0 (Machine.Num.fin false (w / 256) (-24) false)).1)))) ++ [(1, .rng 16)])) ∧
    (fmt ≠ .u32 → fmt ≠ .f32 → exec (.vrng fmt dst r) s = .next (trapped s (rescombo 0 s.cur.slot)))) ∧
  (∀ (s : State) (f : VCvt), s.down = false →
    (cvtFmts f → cvtOk f → exec (.vcvt f) s = .next (begun s
      (at_ 3 [.cells (viewRowNo f.dst) (cvtMask f.sfmt f.fmt f.part.toNat)
        (cvtInto f ((cvtOut (issuer s) f).map (·.1))), .flags (allFlags ((cvtOut (issuer s) f).map (·.2)))] ++
       cvtAdvances (issuer s) f))) ∧
    (efFmts f → efOk f → exec (.vcvtef f) s = .next (begun s
      (at_ 3 [.cells (viewRowNo f.dst) (cvtMask f.sfmt f.fmt f.part.toNat)
        (cvtInto f ((cvtOut (issuer s) f).map (·.1))),
        .cells (viewRowNo f.a) allLanes (rowFrom .f32 0 ((cvtLeft (issuer s) f).map (·.1))),
        .flags (allFlags ((cvtLeft (issuer s) f).map (·.2)))] ++ cvtAdvances (issuer s) f))) ∧
    (¬ cvtFmts f → exec (.vcvt f) s = .next (trapped s (rescombo 0 s.cur.slot))) ∧
    (¬ efFmts f → exec (.vcvtef f) s = .next (trapped s (rescombo 0 s.cur.slot))) ∧
    (cvtFmts f → ¬ cvtOk f → exec (.vcvt f) s = .next (trapped s (rescombo 3 s.cur.slot))) ∧
    (efFmts f → ¬ efOk f → exec (.vcvtef f) s = .next (trapped s (rescombo 3 s.cur.slot))))

/-- The panel-axis operations by rows take each element of their destination from the element of A that the table
names, after six sc; VSHFR shifts a pair of rows (14 R273). The panel-axis operations by columns and VTRN write the
sixteen rows of their destination panel after 18 sc (14 R274). -/
def Obligations.PanelAxisOperationsMoveElements : Prop :=
  ((∀ (s : State) (i : Instr) (f : VShift) (pick : Nat → Nat → Nat), s.down = false →
    rowAxisRow i = some (f, pick) → Fmt.isAny f.fmt = true → viewIsRow f.dst = true → viewIsRow f.a = true →
    exec i s = .next (begun s [(6, .cells (viewRowNo f.dst) allLanes (rowFrom f.fmt 0
      ((List.range (perRow f.fmt)).map (fun e =>
        elemAt f.fmt ((issuer s).view f.a) (pick ((issuer s).amount f.amt) e)))))])) ∧
  ∀ (s : State) (f : VShift), s.down = false → Fmt.isAny f.fmt = true → viewIsRow f.dst = true →
    viewIsRow f.a = true → viewRowNo f.a + 1 < 16 * (issuer s).panels → amtAbove (perRow f.fmt) f.amt = false →
    exec (.vshfr f) s = .next (begun s [(6, .cells (viewRowNo f.dst) allLanes (rowFrom f.fmt 0
      ((List.range (perRow f.fmt)).map (fun e =>
        let k := Nat.min ((issuer s).amount f.amt) (perRow f.fmt)
        if e + k < perRow f.fmt then elemAt f.fmt ((issuer s).vrow (viewRowNo f.a)) (e + k)
        else elemAt f.fmt ((issuer s).vrow (viewRowNo f.a + 1)) (e + k - perRow f.fmt)))))])) ∧
  ((∀ (s : State) (i : Instr) (f : VShift) (n lim : Nat) (pick : Nat → Nat → Nat), s.down = false →
    colAxisRow i = some (f, n, lim, pick) → colAxisOk (issuer s) f n lim →
    exec i s = .next (begun s ((List.range 16).map (fun r => (18, .cells (viewRowNo f.dst + r) allLanes
      ((issuer s).vrow (viewRowNo f.a + pick ((issuer s).amount f.amt) r))))))) ∧
  ∀ (s : State) (dst a : View) (r : BitVec 3), s.down = false → viewIsPanel dst = true → viewIsPanel a = true →
    exec (.vtrn .f32 dst a r) s = .next (begun s ((List.range 16).map (fun i => (18, .cells (viewRowNo dst + i) allLanes
      (rowFrom .f32 0 ((List.range 64).map (fun c =>
        rowCell ((issuer s).vrow (viewRowNo a + c % 16)) (16 * (c / 16) + i)))))))))

/-- VREDR reduces the elements of a row by the tree of its rule and writes the result in lane 0 of its row, the other
lanes zero; VREDC reduces the sixteen cells of each column and writes the 64 results; both raise the flags of every node,
and the sum of 32-bit integers along a column is their sum modulo 2^32 (14 R275). VPART lists the lanes whose cell is not zero and those whose cell is, with their
counts; VCNT counts elements that are not zero; VARGM gives the value and the index of the greatest or least cell, the
lowest index among equals, in u32, i32 and f32, where the first NaN comes before every number (14 R276-R278). -/
def Obligations.ReductionsCountsAndArgmax : Prop :=
  (∀ (s : State) (f : VRed), s.down = false → viewIsRow f.dst = true →
    (Fmt.isFlIn f.fmt = true → viewIsRow f.a = true →
      ∃ r : Nat × Flags, r = reduce f.fmt f.op (Nat.log2 (perRow f.fmt))
          ((List.range (perRow f.fmt)).map (elemAt f.fmt ((issuer s).view f.a))) ∧
        exec (.vredr f) s =
          .next (begun s [(6, .cells (viewRowNo f.dst) allLanes (rowFrom .i32 0 [r.1])), (6, .flags r.2)])) ∧
    (f.fmt = .f32 ∨ f.fmt = .i32 ∨ f.fmt = .u32 → viewIsPanel f.a = true →
      ∃ (col : Nat → Nat × Flags) (v : Row),
        (∀ c, col c = reduce f.fmt f.op 4 ((List.range 16).map (fun r =>
          rowCell ((issuer s).vrow (viewRowNo f.a + r)) c))) ∧ v = rowFrom .i32 0 ((List.range 64).map (fun c => (col c).1)) ∧
        exec (.vredc f) s = .next (begun s [(18, .cells (viewRowNo f.dst) allLanes v),
          (18, .flags (allFlags ((List.range 64).map (fun c => (col c).2))))]) ∧
        (f.fmt = .u32 → f.op = .sum → ∀ c < 64, rowCell v c =
          ((List.range 16).map (fun r => rowCell ((issuer s).vrow (viewRowNo f.a + r)) c)).sum % 2 ^ 32))) ∧
  (∀ (s : State) (dst a : View) (b d : BitVec 6) (fmt : Fmt) (mn : Bool) (r : BitVec 3), s.down = false →
    viewIsRow a = true →
    (viewIsRow dst = true → viewRowNo dst + 1 < 16 * (issuer s).panels →
      ∃ tt uu : List Nat,
        (∀ j, j ∈ tt ↔ j < 64 ∧ rowCell ((issuer s).view a) j ≠ 0) ∧
        (∀ j, j ∈ uu ↔ j < 64 ∧ rowCell ((issuer s).view a) j = 0) ∧ tt.Pairwise (· < ·) ∧ uu.Pairwise (· < ·) ∧
        exec (.vpart .i32 dst a b r) s = .next (begun s (at_ 6 [
          .cells (viewRowNo dst) allLanes (indexRow tt), .cells (viewRowNo dst + 1) allLanes (indexRow uu),
          (issuer s).wScalar b (BitVec.ofNat 64 tt.length), (issuer s).wScalar (b + 1) (BitVec.ofNat 64 uu.length)]))) ∧
    (Fmt.isAny fmt = true → exec (.vcnt fmt d a r) s = .next (begun s [(6, (issuer s).wScalar d (BitVec.ofNat 64
      ((List.range (perRow fmt)).countP (fun e => elemAt fmt ((issuer s).view a) e ≠ 0))))])) ∧
    (∃ j < 64, exec (.vargm .u32 mn d a r) s = .next (begun s (at_ 6 [(issuer s).wScalar d
        (BitVec.ofNat 64 (rowCell ((issuer s).view a) j * 2 ^ 32 + j)), .flags fNone])) ∧
      ∀ k < 64, (if mn then rowCell ((issuer s).view a) j ≤ rowCell ((issuer s).view a) k
          else rowCell ((issuer s).view a) k ≤ rowCell ((issuer s).view a) j) ∧
        (rowCell ((issuer s).view a) k = rowCell ((issuer s).view a) j → j ≤ k)) ∧
    (∃ j < 64, exec (.vargm .i32 mn d a r) s = .next (begun s (at_ 6 [(issuer s).wScalar d
        (BitVec.ofNat 64 (rowCell ((issuer s).view a) j * 2 ^ 32 + j)), .flags fNone])) ∧
      ∀ k < 64, (if mn then intVal 32 true (rowCell ((issuer s).view a) j) ≤ intVal 32 true (rowCell ((issuer s).view a) k)
          else intVal 32 true (rowCell ((issuer s).view a) k) ≤ intVal 32 true (rowCell ((issuer s).view a) j)) ∧
        (rowCell ((issuer s).view a) k = rowCell ((issuer s).view a) j → j ≤ k)) ∧
    exec (.vargm .f32 mn d a r) s = .next (begun s (at_ 6 [(issuer s).wScalar d
      (BitVec.ofNat 64 ((argFloat mn ((issuer s).view a)).1.1 * 2 ^ 32 + (argFloat mn ((issuer s).view a)).1.2)),
      .flags (argFloat mn ((issuer s).view a)).2])))

/-- SDIV, SDIVU, SREM and SREMU give their quotient or remainder at t + 12 and raise no flag (14 R280). -/
def Obligations.ScalarDivisionsGiveTheirResult : Prop :=
  ∀ (s : State) (i : Instr) (f : SDiv) (v : BitVec 64), s.down = false →
    divisionRow (issuer s) i = some (f, v) → exec i s = .next (begun s [(12, (issuer s).wScalar f.d v)])

/-- The direction operations that form a group do so after the latencies of their table, and change nothing else (15
R290, R297-R299). DDOT, DDOTN, DSCL, DZT, DGETN and DSETN give the results of their rules, DNORM forms the group of
the unit vector of its elements, DCVT writes the rows of its group's elements rounded once and DSIM sixteen products, or
take RESCOMBO (15 R289, R292-R297). The model's choices about infinite and zero codes of DDOT and DPROJ are those of log
entries 75 and 76. -/
def Obligations.DirectionOperationsGiveTheirResults : Prop :=
  (∀ (s : State) (i : Instr) (o : GroupOp), s.down = false → groupRow (issuer s) i = some o →
    exec i s = .next (begun s (groupEffects o.d o.k o.lc o.ln o.r))) ∧
  ((∀ (s : State) (i : Instr) (l : List (Nat × Act)), s.down = false → directionRow (issuer s) i = some l →
    exec i s = .next (begun s l)) ∧
  ∀ (s : State) (fmt : Fmt) (g : Grp) (d a b : BitVec 6) (v : View) (r : BitVec 3), s.down = false →
    (runReason (issuer s) fmt g.size v = none →
      exec (.dnorm fmt g d v r) s = .next (begun s (groupEffects d.toNat g.size (8 + 2 * g.size) (10 + 2 * g.size)
        (normed (runOf (issuer s) fmt g.size v)))) ∧
      ∃ ys : List (Nat × Flags), ys = ((issuer s).group a.toNat g.size).2.map
          (dcvtElem fmt ((issuer s).group a.toNat g.size).1) ∧
        exec (.dcvt fmt g v a r) s = .next (begun s (at_ (4 + 2 * g.size)
          (((List.range (rowsOf fmt g.size)).map (fun i =>
            .cells (viewRowNo v + i) allLanes (dcvtRow fmt (ys.map (·.1)) i))) ++ [.flags (allFlags (ys.map (·.2)))])))) ∧
    (∀ n, runReason (issuer s) fmt g.size v = some n →
      exec (.dnorm fmt g d v r) s = .next (trapped s (rescombo n s.cur.slot)) ∧
      exec (.dcvt fmt g v a r) s = .next (trapped s (rescombo n s.cur.slot))) ∧
    (viewIsRow v = true → 16 * g.size ≤ 64 → b.toNat + 16 * g.size ≤ 64 →
      exec (.dsim g v a b r) s = .next (begun s (at_ (8 + 2 * g.size) [
        .cells (viewRowNo v) allLanes (rowFrom .f32 0 ((List.range 16).map (fun j =>
          (ddotOf false ((issuer s).group a.toNat g.size) ((issuer s).group (b.toNat + j * g.size) g.size)).1))),
        .flags (((List.range 16).map (fun j =>
          (ddotOf false ((issuer s).group a.toNat g.size) ((issuer s).group (b.toNat + j * g.size) g.size)).2)).foldl
            (· ||| ·) fNone)]))))

namespace Sys2Proof.Claims
open Sys2Proof.Machine

/-! ### Special registers (11 R201-R203) -/

/-- A number of the plot that a tile belongs to, 0 for a tile of none. -/
def ofPlot (s : State) (n : Nat) (f : Plot → Nat) : BitVec 64 := ((s.plotOf n).map (fun p => BitVec.ofNat 64 (f p))).getD 0
/-- LEASEST: state, reason, the pattern granted, and what remains of the cap and of the duration, which run while the
lease is granted; the energy is that at the start of the sc (13 R247, 28 R463, R464, R466). -/
def leasest (l : Lease) (mp : Nat) (energy : BitVec 64) : BitVec 64 :=
  let us := if l.state = 2 then l.us - (mp - l.mp) / 4000 else l.us
  let uj := if l.state = 2 then l.uj - (energy.toNat / 1024 - l.energy.toNat / 1024) else l.uj
  BitVec.ofNat 64 (l.state.toNat * 2 ^ 62 + l.reason.toNat * 2 ^ 58 + l.pulses * 2 ^ 53 + uj * 2 ^ 28 + us)
/-- The canonical mask of a pattern of d pulses of every sixteen (28 R454). -/
def twill (d : Nat) : BitVec 64 :=
  BitVec.ofNat 64 (((List.range 16).map (fun i => if i * d / 16 < (i + 1) * d / 16 then 2 ^ i else 0)).sum)
/-- MUSTSV: whether the declaration is charged, whether the keep store is there, the items marked and those declared
(28 R470). -/
def mustsv (pl : Plot) (keep : Bool) : BitVec 64 :=
  BitVec.ofNat 64 (pl.charged.toNat * 2 ^ 33 + keep.toNat * 2 ^ 32 +
    ((List.range 16).map (fun i => if (afind pl.marks i).isSome then 2 ^ i else 0)).sum * 2 ^ 16 +
    (2 ^ pl.tt.musts.length - 1))
/-- The links that are trained. -/
def trained (s : State) : Nat :=
  ((List.range 12).map (fun i => if i < s.model.links ∧ (s.link i).state = 2 then 2 ^ i else 0)).sum
/-- What MOVS reads, by the table of 11 R201: the registers of the tile, of its plot and of its cluster. -/
def specialRow (s : State) (n : Nat) (id : Nat) : BitVec 64 :=
  match id with
  | 0x000 => ofPlot s n (fun p => p.scyc % 2 ^ 48)
  | 0x001 => BitVec.ofNat 64 s.mp
  | 0x002 => BitVec.ofNat 64 (s.tile n).lx
  | 0x003 => BitVec.ofNat 64 (s.tile n).ly
  | 0x004 => ofPlot s n (fun p => p.w)
  | 0x005 => ofPlot s n (fun p => p.h)
  | 0x006 => ofPlot s n (fun p => 8 * p.tt.bedw + p.tt.bedh)
  | 0x008 => ofPlot s n (fun p => p.ctx)
  | 0x009 => (s.ctx (s.ctxOf n)).part.setWidth 64
  | 0x010 => (s.tile n).regs.flags.setWidth 64
  | 0x011 => (s.tile n).regs.rmode.setWidth 64
  | 0x012 => (s.tile n).regs.rngKey0.setWidth 64
  | 0x013 => (s.tile n).regs.rngKey1.setWidth 64
  | 0x014 => (s.tile n).regs.rngCtr
  | 0x020 => (s.tile n).trap.tcause
  | 0x021 => (s.tile n).trap.tpc
  | 0x022 => (s.tile n).trap.tval
  | 0x023 => (s.tile n).trap.tscyc
  | 0x024 => (s.tile n).trap.evec
  | 0x030 => BitVec.ofNat 64 (s.tile n).seq.loops.length
  | 0x040 => BitVec.ofNat 64 (0x10000 + 256 * (s.tile n).panels + s.model.caps)
  | 0x041 => BitVec.ofNat 64 ((if s.model = .d24 then 0 else 4) * 2 ^ 40 + trained s * 2 ^ 28 + 64 * 2 ^ 16 +
      8 * 2 ^ 8 + 0xF)
  | 0x050 => twill (s.cluster (clusterOf n)).pat
  | 0x051 => ofPlot s n (fun p => p.split.toNat)
  | 0x052 => BitVec.ofNat 64 ((((s.plotOf n).map (·.scEnergy)).getD (s.ctx (s.ctxOf n)).energy).toNat / 1024)
  | 0x053 => ((s.plotOf n).map (fun p => leasest p.lease s.mp p.scEnergy)).getD 0
  | 0x060 => ((s.plotOf n).map (fun p => mustsv p s.model.keep)).getD 0
  | 0x061 => (s.tile n).saveSeq
  | i => if 0x031 ≤ i ∧ i ≤ 0x036 then
      -- LIDX0 is the oldest entry's index
      (((s.tile n).seq.loops.reverse[i - 0x031]?).map (fun e => e.index.setWidth 64)).getD 0
    else if 0x100 ≤ i ∧ i < 0x140 then ((s.tile n).vault.bank (i - 0x100)).toBits
    else if 0x140 ≤ i ∧ i < 0x144 then sget 0 (s.tile n).vault.vwb (i - 0x140)
    else if 0x144 ≤ i ∧ i < 0x148 then sget 0 (s.tile n).vault.vwl (i - 0x144) else 0
/-- A register marked SV. -/
def svId (id : BitVec 12) : Prop := id = 0x024 ∨ 0x100 ≤ id.toNat
/-- A register that MOVT may write in a mode: RW, in supervisor mode SV and the four trap registers. -/
def movtWrites (sup : Bool) (id : BitVec 12) : Prop :=
  (0x010 ≤ id.toNat ∧ id.toNat ≤ 0x014) ∨
  (sup = true ∧ ((0x020 ≤ id.toNat ∧ id.toNat ≤ 0x024) ∨ 0x100 ≤ id.toNat))

/-! ### The M slots (09, 10, 08) -/

/-- The tile with reservations and claim tags. -/
def reservedTile (t : Tile) (rs : List Resv) (tags : Store 11) : Tile := { t with ports := rs, tags := tags }
/-- The state after an operation that reserves sides, makes a claim and begins effects: nothing else changes. -/
def begunOn (s : State) (rs : List Resv) (tags : Store 11) (l : List (Nat × Act)) : State :=
  s.setTile s.cur.tile (pushed s l (reservedTile (issuer s) rs tags)).nextSeq
/-- The sides of accesses are free or shared, and leave the reservations rs (09 R153-R156). -/
def placed (s : State) (ps : List Port) (rs : List Resv) : Prop :=
  reserve s.env ps (issuer s) = .ok { issuer s with ports := rs }
/-- A static read of bytes at the issue sc: its sides are placed, no error stands in its words, and no claim is against
it; it leaves the tags given (09 R152-R157, R166). -/
def readable (s : State) (ps : List Port) (a len : Nat) (rs : List Resv) (tags : Store 11) : Prop :=
  placed s ps rs ∧
  (∀ p ∈ (s.setTile s.cur.tile { issuer s with ports := rs }).readWords s.cur.tile a len s.env.now s.cur.slot,
    ∀ w ∈ p.2, w ∉ s.errs ∧ w ∉ s.soft) ∧
  (s.setTile s.cur.tile { issuer s with ports := rs }).claim s.cur.tile s.cur.tile .read (gransOf a len) = .ok tags
/-- Bytes of memory after a store: the stored bytes, and every other byte as before. -/
def storedAt (m m' : List Host.Cell) (a : Nat) (b : List Byte) : Prop :=
  (∀ x, x < a ∨ a + b.length ≤ x → Memory.get m' x = Memory.get m x) ∧
  ∀ (i : Nat) (v : Byte), b[i]? = some v → Memory.get m' (a + i) = v
/-- Bytes of the issuing tile's scratchpad. -/
def bytesAt (s : State) (a len : Nat) : List Byte := Memory.read s.mem (2 ^ 48 + s.cur.tile * 2 ^ 20 + a) len
/-- The scratchpad address of a static operation (10 R178). -/
def eaOf (s : State) (m : MAddr) : Nat := ((issuer s).rs m.sa).toNat + m.off.toNat
/-- The virtual address of a dynamic operation (10 R178). -/
def vaOf (s : State) (m : MAddr) : BitVec 64 := (issuer s).rs m.sa + m.off.signExtend 64
/-- The address rule: aligned and within the 768 KiB of the scratchpad (10 R178). -/
def inSpad (a align span : Nat) : Prop := a % align = 0 ∧ a + span ≤ 0xC0000
/-- The scalar that an LDS of n bytes gives (10 R182). -/
def loaded (sx : Bool) (n : Nat) (b : List Byte) : BitVec 64 :=
  if sx = true ∧ 2 ^ (8 * n - 1) ≤ leNat b then BitVec.ofNat 64 (2 ^ 64 - 2 ^ (8 * n) + leNat b)
  else BitVec.ofNat 64 (leNat b)
/-- The lanes of a gather or scatter that are not null, with their addresses (10 R183). -/
def lanesOf (s : State) (r ea : Nat) : List (Nat × Nat) :=
  (List.range 64).filterMap (fun j =>
    if rowCell ((issuer s).vrow (r + 1)) j < 2 ^ 31 then some (j, ea + 4 * rowCell ((issuer s).vrow (r + 1)) j) else none)
/-- A legal row pair of a gather or scatter (10 R183). -/
def pairOk (s : State) (r : Nat) : Prop := r % 2 = 0 ∧ r + 1 < 16 * (issuer s).panels
/-- A static write of bytes at the issue sc: its sides are placed, and no claim is against it; it leaves the tags given
(09 R153-R157, R166). -/
def writable (s : State) (ps : List Port) (a len : Nat) (rs : List Resv) (tags : Store 11) : Prop :=
  placed s ps rs ∧
  (s.setTile s.cur.tile { issuer s with ports := rs }).claim s.cur.tile s.cur.tile .write (gransOf a len) = .ok tags
/-- A local atomic: the operation, whether it is of 64 bits, SB, SC and its address (10 R186). -/
def atomRow : Instr → Option (AtOp × Bool × BitVec 6 × BitVec 6 × MAddr)
  | .aadd w b c m => some (.add, w, b, c, m)
  | .afadd w b c m => some (.fadd, w, b, c, m)
  | .amin w b c m => some (.min, w, b, c, m)
  | .amax w b c m => some (.max, w, b, c, m)
  | .aminu w b c m => some (.minu, w, b, c, m)
  | .amaxu w b c m => some (.maxu, w, b, c, m)
  | .aand w b c m => some (.and, w, b, c, m)
  | .aor w b c m => some (.or, w, b, c, m)
  | .axor w b c m => some (.xor, w, b, c, m)
  | .axch w b c m => some (.xch, w, b, c, m)
  | .acas w b c m => some (.cas, w, b, c, m)
  | _ => none
/-- A remote atomic: the operation, whether it is of 64 bits, SB, the barrier and the address (10 R187). -/
def remoteRow : Instr → Option (AtOp × Bool × BitVec 6 × BitVec 6 × MAddr)
  | .aaddRem w b c m => some (.add, w, b, c, m)
  | .afaddRem w b c m => some (.fadd, w, b, c, m)
  | .aminRem w b c m => some (.min, w, b, c, m)
  | .amaxRem w b c m => some (.max, w, b, c, m)
  | .aminuRem w b c m => some (.minu, w, b, c, m)
  | .amaxuRem w b c m => some (.maxu, w, b, c, m)
  | .aandRem w b c m => some (.and, w, b, c, m)
  | .aorRem w b c m => some (.or, w, b, c, m)
  | .axorRem w b c m => some (.xor, w, b, c, m)
  | .axchRem w b c m => some (.xch, w, b, c, m)
  | .acasRem w b c m => some (.cas, w, b, c, m)
  | _ => none
/-- Bytes of a word. -/
def wide (w64 : Bool) : Nat := if w64 then 8 else 4
/-- A dynamic access as it is made (10 R188). -/
def newDyn (s : State) (k : DynKind) (va : BitVec 64) (loc : Nat) (bar : BitVec 6) (order : Option Scope)
    (x y : BitVec 64) : Dyn :=
  { id := (issuer s).dynNo, kind := k, va := va, loc := loc, bar := (issuer s).barOf bar, sc := s.env.now,
    addr := s.cur.addr, slot := s.cur.slot, order := order, data := none, x := x, cmp := y, served := false,
    flags := fNone, fault := none }
/-- The number of a tile's next copy, which passes over 0 and 0x1FFFFF, and the copy's id (08 R137). -/
def copyNo (s : State) : Nat := if (issuer s).shcpy = 0x1FFFFF then 1 else (issuer s).shcpy + 1
def newId (s : State) : BitVec 32 :=
  let w := ((s.plotOf s.cur.tile).map (·.w)).getD 1
  BitVec.ofNat 32 (((issuer s).ly * w + (issuer s).lx) * 2 ^ 21 + copyNo s)
/-- A copy as it enters the Shuttle's queue behind those of a lesser age (08 R135-R137). -/
def newCopy (s : State) (d : BitVec 512) (age : Nat) : Copy :=
  { id := newId s, ctx := s.ctxOf s.cur.tile, tile := some s.cur.tile, lx := (issuer s).lx, ly := (issuer s).ly,
    addr := s.cur.addr, slot := s.cur.slot, sc := s.env.now, desc := d,
    bar := (issuer s).barOf (BitVec.ofNat 6 (descBar d)), rm := (issuer s).rmFixed (rmGet (descField d 362 3)), age := age,
    next := 0, beats := [], written := 0, cancelled := false, faulted := false, suspended := false, flags := fNone, q := 0,
    qseq := 0, node := none, cause := 0 }
/-- A publish as it is asked for (08 R143). -/
def newPub (s : State) (bar : BitVec 6) (sc : Scope) (m : MAddr) : Pub :=
  let w := ((s.plotOf s.cur.tile).map (·.w)).getD 1
  ⟨vaOf s m, sc, (issuer s).barOf bar, s.cur.tile, s.env.now, s.cur.addr, (issuer s).ly * w + (issuer s).lx, (issuer s).lx,
    (issuer s).ly, (issuer s).dynNo⟩
/-- What SHQRY gives of a copy: its state (1 queued, 2 under way, 3 cancelled or faulted), barrier, priority and bytes
written (08 R147). -/
def copyWord (c : Copy) : BitVec 64 :=
  BitVec.ofNat 64 ((if c.cancelled = true ∨ c.faulted = true then 3 else if c.next = 0 then 1 else 2) * 2 ^ 62 +
    c.desc.toNat / 2 ^ 368 % 2 ^ 6 * 2 ^ 56 + c.desc.toNat / 2 ^ 366 % 2 ^ 2 * 2 ^ 54 + c.written)
/-- The state after a dynamic access is made. -/
def accessed (s : State) (rs : List Resv) (tags : Store 11) (l : List (Nat × Act)) (d : Dyn) : State :=
  s.setTile s.cur.tile { pushed s l (reservedTile (issuer s) rs tags) with
    dyn := (issuer s).dyn ++ [d], dynNo := (issuer s).dynNo + 1, seqNo := (issuer s).seqNo + 1 }

end Sys2Proof.Claims

open Sys2Proof Sys2Proof.Machine Sys2Proof.Claims

/-- MOVS completes on every special register of the table: it gives the register's value at t + 1 and changes nothing
else; of a register marked SV in user mode it takes PRIV (11 R201-R203, 13 R247, 28 R454, R464, R470). MOVT writes a
register that its mode may write at t + 1, and is ignored for every other; it takes PRIV for a register marked SV in
user mode (11 R201, 13 R247). Of an id that the table does not name neither is an instruction. MPCNT counts every
master pulse (DEDUCED, log entry 32), and ENERGY and the UJ of LEASEST read the counter as it stood at the start of the
sc. -/
def Obligations.SpecialRegistersAreReadAndWritten : Prop :=
  (∀ (s : State) (d : BitVec 6) (id : BitVec 12), s.down = false →
    ((issuer s).trap.sup = true ∨ ¬ svId id → specialId id = true →
      exec (.movs d id) s = .next (begun s [(1, (issuer s).wScalar d (specialRow s s.cur.tile id.toNat))])) ∧
    ((issuer s).trap.sup = false → svId id → exec (.movs d id) s = .next (trapped s (priv s.cur.slot)))) ∧
  (∀ (s : State) (a : BitVec 6) (id : BitVec 12), s.down = false →
    ((issuer s).trap.sup = false → svId id → exec (.movt a id) s = .next (trapped s (priv s.cur.slot))) ∧
    ((issuer s).trap.sup = true ∨ ¬ svId id → specialId id = true →
      (movtWrites (issuer s).trap.sup id →
        exec (.movt a id) s = .next (begun s [(1, .special id.toNat ((issuer s).rs a))])) ∧
      (¬ movtWrites (issuer s).trap.sup id → exec (.movt a id) s = .next (begun s [])))) ∧
  (∀ (P : Nat) (d : BitVec 6) (id : BitVec 12), specialId id = false →
    wellFormed P (.movs d id) = false ∧ wellFormed P (.movt d id) = false)

/-- LDV and LDS on an address that obeys the address rule read the scratchpad in their issue sc; LDV writes its view
at t + 8 and LDS its scalar at t + 6; on another address they take ALIGNF (10 R178-R182). STV and STS on an address
that obeys the address rule reserve the write sides of t + 4 and store there the bytes that their source holds in the
issue sc; no byte of memory changes at issue (10 R178-R182). -/
def Obligations.LoadsAndStoresUseTheirPortSc : Prop :=
  (∀ (s : State) (v : View) (sx : Bool) (size : Size) (sb : BitVec 6) (m : MAddr) (rs : List Resv) (tags : Store 11)
    (n w : Nat), s.down = false → n = viewSpan v → w = Size.bytes size →
    (inSpad (eaOf s m) 64 n → readable s (portsOf s.env.now false (eaOf s m) n) (eaOf s m) n rs tags →
      exec (.ldv v m) s = .next (begunOn s rs tags
        (at_ 8 (viewWrite v allLanes (rowOfBytes (bytesAt s (eaOf s m) n)))))) ∧
    (¬ inSpad (eaOf s m) 64 n → exec (.ldv v m) s = .next (trapped s (alignf s.cur.slot (eaOf s m)))) ∧
    (inSpad (eaOf s m) w w → readable s (portsOf s.env.now false (eaOf s m) w) (eaOf s m) w rs tags →
      exec (.lds sx size sb m) s = .next (begunOn s rs tags
        [(6, (issuer s).wScalar sb (loaded sx w (bytesAt s (eaOf s m) w)))])) ∧
    (¬ inSpad (eaOf s m) w w → exec (.lds sx size sb m) s = .next (trapped s (alignf s.cur.slot (eaOf s m))))) ∧
  (∀ (s : State) (v : View) (size : Size) (sb : BitVec 6) (m : MAddr) (rs : List Resv) (n w : Nat), s.down = false →
    n = viewSpan v → w = Size.bytes size →
    (inSpad (eaOf s m) 64 n → placed s (portsOf (s.env.now + 4) true (eaOf s m) n) rs →
      exec (.stv v m) s = .next (begunOn s rs (issuer s).tags
        [(4, .spadWr (eaOf s m) (leBytes n ((issuer s).view v).toNat) true)])) ∧
    (¬ inSpad (eaOf s m) 64 n → exec (.stv v m) s = .next (trapped s (alignf s.cur.slot (eaOf s m)))) ∧
    (inSpad (eaOf s m) w w → placed s (portsOf (s.env.now + 4) true (eaOf s m) w) rs →
      exec (.sts size sb m) s = .next (begunOn s rs (issuer s).tags
        [(4, .spadWr (eaOf s m) (leBytes w ((issuer s).rs sb).toNat) true)])) ∧
    (¬ inSpad (eaOf s m) w w → exec (.sts size sb m) s = .next (trapped s (alignf s.cur.slot (eaOf s m)))))

/-- LDG reads the words that its index row names, sixteen lanes an sc from t + 1 on, and zeroes the null lanes at t +
12; STG writes them from t + 5 on; both take RESCOMBO with REASON 3 for an illegal row pair, and ALIGNF for a lane
outside the scratchpad (10 R177, R183). -/
def Obligations.GatherAndScatterFollowTheIndexRow : Prop :=
  ∀ (s : State) (r : BitVec 10) (m : MAddr) (rs : List Resv) (ls : List (Nat × Nat)), s.down = false →
    ls = lanesOf s r.toNat (eaOf s m) →
    (pairOk s r.toNat → (∀ l ∈ ls, inSpad l.2 4 4) → placed s (lanePorts (s.env.now + 1) false ls) rs →
      exec (.ldg (.row r) m) s = .next (begunOn s rs (issuer s).tags
        (((List.range 4).filterMap (fun q =>
          let mine := ls.filter (fun l => l.1 / 16 == q)
          if mine = [] then none else some (1 + q, .gather r.toNat mine))) ++
         [(12, .cells r.toNat (maskOf (fun j => !(ls.any (fun l => l.1 == j)))) 0)]))) ∧
    (pairOk s r.toNat → (∀ l ∈ ls, inSpad l.2 4 4) → placed s (lanePorts (s.env.now + 5) true ls) rs →
      exec (.stg (.row r) m) s = .next (begunOn s rs (issuer s).tags
        (ls.map (fun l => (5 + l.1 / 16, .spadWr l.2 (leBytes 4 (rowCell ((issuer s).vrow r.toNat) l.1)) true))))) ∧
    (∀ v : View, (v = .row r ∧ ¬ pairOk s r.toNat) ∨ viewIsRow v = false →
      exec (.ldg v m) s = .next (trapped s (rescombo 3 s.cur.slot)) ∧
      exec (.stg v m) s = .next (trapped s (rescombo 3 s.cur.slot))) ∧
    (pairOk s r.toNat → (∃ l ∈ ls, ¬ inSpad l.2 4 4) →
      ∃ l ∈ ls, ¬ inSpad l.2 4 4 ∧ exec (.ldg (.row r) m) s = .next (trapped s (alignf s.cur.slot l.2)) ∧
        exec (.stg (.row r) m) s = .next (trapped s (alignf s.cur.slot l.2)))

/-- STD stores the components of its group, a member an sc from t + 4 on. LDD reads its first member in the issue sc; a
group of one is formed from that granule's 128 components, whose unit vector it holds from t + 12 and its norm from t +
14; a larger group's second member is read in the next sc (10 R184). The landing of each further member is stated in
StoresAndVaultTransfersMoveTheirBytes. -/
def Obligations.DirectionLoadsAndStores : Prop :=
  ∀ (s : State) (g : Grp) (d : BitVec 6) (m : MAddr) (rs : List Resv) (tags : Store 11), s.down = false →
    (inSpad (eaOf s m) 64 (256 * g.size) → placed s (memberPorts (s.env.now + 4) true g.size (eaOf s m)) rs →
      exec (.std g d m) s = .next (begunOn s rs (issuer s).tags ((List.range g.size).map (fun i =>
        (4 + i, .spadWr (eaOf s m + 256 * i) (leBytes 256 ((issuer s).comps (d.toNat + i)).toNat) true))))) ∧
    (inSpad (eaOf s m) 64 (256 * g.size) →
      readable s (memberPorts s.env.now false g.size (eaOf s m)) (eaOf s m) 256 rs tags →
      (g = .g1 → exec (.ldd g d m) s = .next (begunOn s rs tags (groupEffects d.toNat 1 12 14
        (renorm ((List.range 128).map (fun i => q15Val (rowElem (rowOfBytes (bytesAt s (eaOf s m) 256)) 16 i)))
          (-15) 0)))) ∧
      (g ≠ .g1 → exec (.ldd g d m) s = .next (begunOn s rs tags
        [(1, .lddRead d.toNat g.size 1 (eaOf s m) [rowOfBytes (bytesAt s (eaOf s m) 256)])]))) ∧
    (¬ inSpad (eaOf s m) 64 (256 * g.size) → exec (.std g d m) s = .next (trapped s (alignf s.cur.slot (eaOf s m))) ∧
      exec (.ldd g d m) s = .next (trapped s (alignf s.cur.slot (eaOf s m))))

/-- LDWB of n granules to granule o reads four granules an sc from t + 1 on and holds its half until it completes; it
takes RESCOMBO with REASON 3 for an illegal count, and BUSY 0x42 while its half is in use (10 R185). -/
def Obligations.WeightBufferLoadsHoldTheirHalf : Prop :=
  ∀ (s : State) (h : Bool) (sb sc : BitVec 6) (m : MAddr) (rs : List Resv) (n o use : Nat), s.down = false →
    n = ((issuer s).rs sb).toNat → o = ((issuer s).rs sc).toNat →
    use = (if h then Nat.max (issuer s).mx.load1 (issuer s).mx.half1 else Nat.max (issuer s).mx.load0 (issuer s).mx.half0) →
    (1 ≤ n → o + n ≤ 1024 → inSpad (eaOf s m) 64 (64 * n) → use ≤ s.env.now →
      placed s ((List.range n).map (fun j => ⟨s.env.now + 1 + j / 4, false, eaOf s m / 64 + j⟩)) rs →
      ∃ t, exec (.ldwb h sb sc m) s = .next (s.setTile s.cur.tile t) ∧
        t = { (pushed s [(1, .ldwbRead h (eaOf s m) o n 0), (1 + (n + 3) / 4, .ldwbDone h)]
          (reservedTile (issuer s) rs (issuer s).tags)).nextSeq with mx := t.mx } ∧
        t.mx = (if h then { (issuer s).mx with load1 := s.env.now + 1 + (n + 3) / 4 }
          else { (issuer s).mx with load0 := s.env.now + 1 + (n + 3) / 4 })) ∧
    (1 ≤ n → o + n ≤ 1024 → ¬ inSpad (eaOf s m) 64 (64 * n) →
      exec (.ldwb h sb sc m) s = .next (trapped s (alignf s.cur.slot (eaOf s m)))) ∧
    (n = 0 ∨ 1024 < o + n → exec (.ldwb h sb sc m) s = .next (trapped s (rescombo 3 s.cur.slot))) ∧
    (1 ≤ n → o + n ≤ 1024 → inSpad (eaOf s m) 64 (64 * n) → s.env.now < use →
      exec (.ldwb h sb sc m) s = .next (trapped s (busy 0x42 0)))

/-- A local atomic claims its word and reads it at t + 4, for its write at t + 5 and its result at t + 10; a 64-bit
FP32 add takes RESCOMBO with REASON 0, and a misaligned word ALIGNF (10 R177, R186). -/
def Obligations.LocalAtomicsClaimAndReadTheirWord : Prop :=
  ∀ (s : State) (i : Instr) (op : AtOp) (w64 : Bool) (sb sc : BitVec 6) (m : MAddr) (rs : List Resv), s.down = false →
    atomRow i = some (op, w64, sb, sc, m) →
    (op = .fadd ∧ w64 = true → exec i s = .next (trapped s (rescombo 0 s.cur.slot))) ∧
    (¬ (op = .fadd ∧ w64 = true) →
      (¬ inSpad (eaOf s m) (wide w64) (wide w64) → exec i s = .next (trapped s (alignf s.cur.slot (eaOf s m)))) ∧
      (inSpad (eaOf s m) (wide w64) (wide w64) →
        placed s [⟨s.env.now + 4, false, eaOf s m / 64⟩, ⟨s.env.now + 5, true, eaOf s m / 64⟩] rs →
        exec i s = .next (begunOn s rs (issuer s).tags
          [(4, .atomClaim (eaOf s m) (wide w64)),
           (4, .atomRead op w64 (eaOf s m)
            (if w64 then (issuer s).rs sc else (issuer s).rs sc &&& 0xFFFFFFFF)
            (if w64 then (issuer s).rs sb else (issuer s).rs sb &&& 0xFFFFFFFF)
            ((issuer s).target sb).1 ((issuer s).target sb).2)])))

/-- LDR, STR and the remote atomics make one dynamic access, at most 64 at a time; a remote atomic reads its parameter
granule in the issue sc and an STR its granule at t + 4 (10 R187-R190). -/
def Obligations.DynamicAccessesAreMade : Prop :=
  ∀ (s : State) (i : Instr) (op : AtOp) (w64 : Bool) (ord : Option Scope) (sb bar : BitVec 6) (m : MAddr) (p : Nat),
    s.down = false → p = ((issuer s).rs sb).toNat → inSpad p 64 64 →
    (remoteRow i = some (op, w64, sb, bar, m) → ¬ (op = .fadd ∧ w64 = true) → (vaOf s m).toNat % wide w64 = 0 →
      ((issuer s).dyn.length < 64 → ∀ rs tags, readable s (portsOf s.env.now false p 64) p 64 rs tags →
        exec i s = .next (accessed s rs tags [] (newDyn s (.atom op w64) (vaOf s m) p bar none
          (BitVec.ofNat 64 (leNat (bytesAt s p (wide w64))))
          (BitVec.ofNat 64 (leNat (bytesAt s (p + 8) (wide w64))))))) ∧
      (64 ≤ (issuer s).dyn.length → exec i s = .next (trapped s (busy 0x41 0)))) ∧
    ((vaOf s m).toNat % 64 = 0 →
      ((issuer s).dyn.length < 64 →
        exec (.ldr ord sb bar m) s = .next (accessed s (issuer s).ports (issuer s).tags []
          (newDyn s .ldr (vaOf s m) p bar ord 0 0)) ∧
        ∀ rs, placed s (portsOf (s.env.now + 4) false p 64) rs →
          exec (.str ord sb bar m) s = .next (accessed s rs (issuer s).tags [(4, .strRead (issuer s).dynNo p)]
            (newDyn s .str (vaOf s m) p bar ord 0 0))) ∧
      (64 ≤ (issuer s).dyn.length → exec (.ldr ord sb bar m) s = .next (trapped s (busy 0x41 0)) ∧
        exec (.str ord sb bar m) s = .next (trapped s (busy 0x41 0)))) ∧
    ((vaOf s m).toNat % 64 ≠ 0 → exec (.ldr ord sb bar m) s = .next (trapped s (alignf s.cur.slot (vaOf s m).toNat)) ∧
      exec (.str ord sb bar m) s = .next (trapped s (alignf s.cur.slot (vaOf s m).toNat)))

/-- SHCPY, PUBL, SHCAN and SHQRY complete. SHCPY puts the copy of its descriptor into the Shuttle's queue, the youngest
of it, and gives its id at t + 2, or takes the trap of a field, or BUSY 0x40 with sixteen copies: the first field in the
descriptor's order that fails, with its value in TVAL, which is DEDUCED (log entry 22); PUBL asks its context
for a publish; SHCAN cancels the copy of an id and SHQRY gives its word at t + 6; of an id that names none SHCAN does
nothing and SHQRY gives zero. None of them changes anything else (08 R136, R137, R143-R147). -/
def Obligations.ShuttleCommandsReachTheQueue : Prop :=
  ∀ (s : State) (sb bar sa : BitVec 6) (sc : Scope) (m : MAddr) (r : BitVec 3) (a : Nat) (d : BitVec 512),
    s.down = false → a = ((issuer s).rs sb).toNat + m.off.toNat → d = BitVec.ofNat 512 (leNat (bytesAt s a 64)) →
    (inSpad a 64 64 → descCheck d s.cur.slot false = none → (s.copiesOf s.cur.tile).length < 16 →
      ∀ rs tags, readable s (portsOf s.env.now false a 64) a 64 rs tags →
        exec (.shcpy sb m) s = .next ((s.setTile s.cur.tile
          { (pushed s [(2, (issuer s).wScalar m.sa ((newId s).setWidth 64))] (reservedTile (issuer s) rs tags)).nextSeq with
            shcpy := copyNo s }).mapCluster (clusterOf s.cur.tile) (fun k =>
              { k with copies := k.copies ++ [newCopy s d k.copyAge], copyAge := k.copyAge + 1 }))) ∧
    (inSpad a 64 64 → ∀ tr, descCheck d s.cur.slot false = some tr → exec (.shcpy sb m) s = .next (trapped s tr)) ∧
    (inSpad a 64 64 → descCheck d s.cur.slot false = none → 16 ≤ (s.copiesOf s.cur.tile).length →
      exec (.shcpy sb m) s = .next (trapped s (busy 0x40 0))) ∧
    (¬ inSpad a 64 64 → exec (.shcpy sb m) s = .next (trapped s (alignf s.cur.slot a))) ∧
    exec (.publ bar sc m) s = .next ((s.mapCtx (s.ctxOf s.cur.tile) (fun c =>
      { c with pubs := c.pubs ++ [newPub s bar sc m] })).setTile s.cur.tile (issuer s).nextSeq) ∧
    (((issuer s).rs sb).toNat < 2 ^ 32 → ∀ cl c, s.findCopy s.cur.tile (((issuer s).rs sb).setWidth 32) = some (cl, c) →
      exec (.shcan sb r) s = .next ((s.mapCluster cl (fun k =>
        { k with copies := k.copies.map (fun q => if q = c then { q with cancelled := true } else q) })).setTile
          s.cur.tile (issuer s).nextSeq) ∧
      exec (.shqry sa sb r) s = .next (begun s [(6, (issuer s).wScalar sa (copyWord c))])) ∧
    (2 ^ 32 ≤ ((issuer s).rs sb).toNat ∨ s.findCopy s.cur.tile (((issuer s).rs sb).setWidth 32) = none →
      exec (.shcan sb r) s = .next (begun s []) ∧
      exec (.shqry sa sb r) s = .next (begun s [(6, (issuer s).wScalar sa 0)]))

namespace Sys2Proof.Claims
open Sys2Proof.Machine

/-! ### The X, K, D and N slots (16, 17, 04, 05, 11) -/

/-- The state after an operation on its own tile that also counts an event of the partition: nothing else changes but
the partitions' counters. -/
def counts (s u : State) (t : Tile) : Prop := u = { s.setTile s.cur.tile t with parts := u.parts }
/-- Legal operands of MMA and MMAZ: formats, pair, decompressor mode, and the geometry of A rows, selector and B block
(16 R302-R308, 17 R325). -/
def matOk (t : Tile) (f : XMma) : Prop :=
  matFmt f.fa = true ∧ matFmt f.fb = true ∧ pairLegal f.fa f.fb = true ∧ dmodeOk f.fb f.dmode = true ∧
  viewIsRow f.av = true ∧ viewRowNo f.av % 64 = 0 ∧ viewRowNo f.av + 64 ≤ 16 * t.panels ∧
  f.ksel.toNat < rowBlocks f.fa ∧ f.goff.toNat + blockSize f.fb f.dmode ≤ 1024
/-- The first sc in which a half of the weight buffer is loaded. -/
def halfLoad (t : Tile) (h : Bool) : Nat := if h then t.mx.load1 else t.mx.load0
/-- An accumulator is in flight from a matrix operation, or from any move too (16 R314, R318). -/
def flying (t : Tile) (a now : Nat) : Prop := now < aget 0 t.mx.flight a
def moving (t : Tile) (a now : Nat) : Prop := now < aget 0 t.mx.moving a
/-- The effect of an operation's start that is under way: pass 0 has run on the starting rows, zero for an operation
that zeroes and else the accumulator with every write under way made, and pass 1 follows after half the occupancy (16
R303, R310-R313, R319). -/
def firstPass (t : Tile) (x : XOp) (zero : Bool) : Nat × Act :=
  let r := t.pass x 0 (if zero then List.replicate 64 0 else t.chained x.acc)
  (x.occ / 2, .pass1 x r.1 r.2)
/-- The 64 rows of A from a row on. -/
def aRows (t : Tile) (row : Nat) : List Row := (List.range 64).map (fun m => t.vrow (row + m))
/-- The operation that an MMA or MMAZ starts. -/
def matOp (t : Tile) (f : XMma) (occ : Nat) : XOp :=
  { acc := f.acc.toNat, i32 := pairI32 f.fa f.fb, fa := f.fa, fb := f.fb, ksel := f.ksel.toNat, dmode := f.dmode,
    scl := f.scl, half := f.half, goff := f.goff.toNat, occ := occ, rows := aRows t (viewRowNo f.av) }
/-- The operation that a step of an MSEQ starts (17 R329). -/
def stepOp (t : Tile) (f : XSeq) (w : BitVec 64) (occ i : Nat) : XOp :=
  let st := seqStep f (seqParam w) i
  { acc := st.acc, i32 := pairI32 f.fa f.fb, fa := f.fa, fb := f.fb, ksel := st.ksel, dmode := f.dmode, scl := f.scl,
    half := w.getLsbD 20, goff := st.goff, occ := occ, rows := aRows t st.arow }
/-- A tile after MMA, or MMAZ where zero holds, has started: pass 0 has run on the accumulator, or on zero, pass 1 is
under way, the array is held for the occupancy and the accumulator for eight sc more; no register changes but the mode
of the accumulator (16 R313-R318). -/
def matStarted (s : State) (f : XMma) (occ : Nat) (zero : Bool) (t : Tile) : Prop :=
  t.pend = (pushed s [firstPass (issuer s) (matOp (issuer s) f occ) zero] (issuer s)).pend ∧
  t.mx.array = s.env.now + occ ∧ s.env.now + occ + 8 ≤ aget 0 t.mx.flight f.acc.toNat ∧
  s.env.now + occ ≤ (if f.half then t.mx.half1 else t.mx.half0) ∧
  t = { (issuer s).nextSeq with pend := t.pend, mx := t.mx, regs := t.regs } ∧
  t.regs = { (issuer s).regs with accMode := t.regs.accMode }
/-- The D commands without a scratchpad access: the command, its stratum, its bank and its row (04 R83, 05 R102). -/
def commandRow : Instr → Option (DOp × BitVec 2 × BitVec 4 × BitVec 12)
  | .act st bk row _ => some (.act, st, bk, row)
  | .pre st bk _ => some (.pre, st, bk, 0)
  | .prea st => some (.prea, st, 0, 0)
  | .ref st => some (.ref, st, 0, 0)
  | .refb st bk _ => some (.refb, st, bk, 0)
  | _ => none
/-- The column commands (05 R103). -/
def columnRow : Instr → Option (DOp × DCol)
  | .rd f => some (.rd, f)
  | .wr f => some (.wr, f)
  | .rda f => some (.rda, f)
  | .wra f => some (.wra, f)
  | _ => none
/-- What a command does to the record of a bank it names (05 R104): row is the physical row of an ACT, dsc the bound
that a refresh starts. -/
def recordAfter (op : DOp) (row dsc : Nat) (b : Bank) : Bank :=
  match op with
  | .act => { b with state := 1, row := BitVec.ofNat 12 row, aact := 0 }
  | .rd => { b with ard := 0 }
  | .wr => { b with awr := 0 }
  | .rda => { b with ard := 0, state := 2, apre := 12 }
  | .wra => { b with awr := 0, state := 2, apre := 60 }
  | .pre | .prea => if b.state = 1 then { b with state := 0, row := 0, apre := 0 } else b
  | .refb => { b with state := 3, refrem := 240, rkind := false, refdue := BitVec.ofNat 14 dsc }
  | .ref => { b with state := 3, refrem := 1120, rkind := true, refdue := BitVec.ofNat 14 dsc }
/-- A command names a bank, numbered 16 n + b. -/
def named (op : DOp) (st : BitVec 2) (bk : BitVec 4) (k : Nat) : Prop :=
  if op = .prea ∨ op = .ref then k / 16 = st.toNat else k = 16 * st.toNat + bk.toNat
/-- The records after a command: those it names as the table says, every other as before. -/
def recordsAfter (s : State) (op : DOp) (st : BitVec 2) (bk : BitVec 4) (row : Nat) (v : Vault) : Prop :=
  ∀ k, (named op st bk k → v.bank k = recordAfter op row (s.dsc s.cur.tile) ((issuer s).vault.bank k)) ∧
    (¬ named op st bk k → v.bank k = (issuer s).vault.bank k)
/-- The values of a group of lanes as they reach the neighbour (11 R205). -/
def flows (s : State) (dir : Dir) (lane : Nat) (stamp : BitVec 16) (eos : Bool) (parts : List (BitVec 256)) : List Flow :=
  (parts.zip (List.range parts.length)).map (fun p =>
    ⟨s.env.now + s.hopTime s.cur.tile dir (lane + p.2), dir, lane + p.2, p.1, stamp, eos, false⟩)
/-- A state from which values are on their way: the neighbour in that direction receives them if it is a tile of the
same plot, and no other tile's input changes (11 R204, R205, R215). -/
def sends (s u : State) (dir : Dir) (fs : List Flow) : Prop :=
  ∀ m, (u.tile m).inbox = (s.tile m).inbox ++
    if s.model.neighbour s.cur.tile dir = some m ∧ (s.tile m).plot = (issuer s).plot ∧ (issuer s).plot.isSome
    then fs else []
/-- The part of a row operand that lane i of a group takes (11 R206). -/
def partOfRow (t : Tile) (r i : Nat) : BitVec 256 := (t.vrow (r + i / 8)).extractLsb' (256 * (i % 8)) 256
/-- Lanes of a group (11 R206). -/
def width (g : NGrp) : Nat := 2 ^ g.width.toNat
/-- A legal group on a row operand: the lanes, and both rows of a group of sixteen (11 R207). -/
def groupOk (s : State) (g : NGrp) (r : Nat) : Prop :=
  g.lane.toNat + width g ≤ 16 ∧ (width g = 16 → r + 1 < 16 * (issuer s).panels)
/-- The stamp that a tap expects (11 R213). -/
def expected (s : State) : Stamp → BitVec 16
  | .abs n => n
  | .reg k n => ((issuer s).rs k).setWidth 16 + n
  | .age n => BitVec.ofNat 16 s.env.now - n
/-- The value on lane i of a direction in this sc. -/
def onLane (s : State) (g : NGrp) (i : Nat) : Option Flow :=
  (issuer s).inbox.find? (fun f => f.due == s.env.now && f.dir == g.dir && f.lane == i && f.present)
/-- The tap of a group finds values: each lane has one with the expected stamp and end bit (11 R213). -/
def taps (s : State) (g : NGrp) (st : Stamp) (eos : Bool) (fs : List Flow) : Prop :=
  fs.length = width g ∧ ∀ (i : Nat) (f : Flow), fs[i]? = some f →
    onLane s g (g.lane.toNat + i) = some f ∧ f.stamp = expected s st ∧ f.eos = eos
/-- The effects that write received parts into rows at t + 2: eight parts a row (11 R209). -/
def rowParts (r : Nat) (ps : List (BitVec 256)) : List (Nat × Act) :=
  let one (row : Nat) (q : List (BitVec 256)) : Nat × Act :=
    (2, .cells row (maskOf (· < 8 * q.length)) (BitVec.ofNat 2048 (q.foldr (fun p acc => p.toNat + 2 ^ 256 * acc) 0)))
  one r (ps.take 8) :: (if 8 < ps.length then [one (r + 1) (ps.drop 8)] else [])
/-- A legal operand of a group (11 R207). -/
def opndOk (s : State) (g : NGrp) (o : NOpnd) : Prop :=
  match o with
  | .row (.row r) => groupOk s g r.toNat
  | .row _ => False
  | .none => g.lane.toNat + width g ≤ 16
  | _ => g.lane.toNat + width g ≤ 16 ∧ width g = 1
/-- The scratchpad address of an operand, if it is one (11 R207). -/
def spadOf (s : State) : NOpnd → Option Nat
  | .spad k => some ((issuer s).rs k).toNat
  | _ => none
/-- The parts that an operand supplies (11 R206, R207). -/
def partsOf (s : State) (w : Nat) : NOpnd → List (BitVec 256)
  | .row (.row r) => (List.range w).map (partOfRow (issuer s) r.toNat)
  | .scalar k => [((issuer s).rs k).setWidth 256]
  | .spad k => [BitVec.ofNat 256 (leNat (bytesAt s ((issuer s).rs k).toNat 32))]
  | _ => []
/-- The effects that write received parts into a row or a scalar at t + 2 (11 R209). -/
def storesOf (s : State) (ps : List (BitVec 256)) : NOpnd → List (Nat × Act)
  | .row (.row r) => rowParts r.toNat ps
  | .scalar k => [(2, (issuer s).wScalar k ((ps.headD 0).setWidth 64))]
  | _ => []
/-- The values that a tap re-drives, as they came (11 R210). -/
def passedOn (s : State) (od : Dir) (ol : Nat) (fs : List Flow) : List Flow :=
  (fs.zip (List.range fs.length)).map (fun p =>
    ⟨s.env.now + s.hopTime s.cur.tile od (ol + p.2), od, ol + p.2, p.1.data, p.1.stamp, p.1.eos, false⟩)
/-- Values under way from the issuing tile on k lanes (11 R215). -/
def underWay (s : State) (od : Dir) (ol k : Nat) : List (Nat × Act) :=
  (List.range k).map (fun i => (s.hopTime s.cur.tile od (ol + i), .driven))
/-- The sums of a reduction with their flags (11 R212). -/
def sumsOf (s : State) (rf : BitVec 2) (fs : List Flow) (o : NOpnd) : List (BitVec 256 × Flags) :=
  (fs.zip (partsOf s fs.length o)).map (fun p => addParts rf.toNat p.1.data p.2)
/-- An operation of the N slot has completed: its tile is t, no other tile has changed but for the values that reach it,
and memory is m. -/
def nDone (s u : State) (t : Tile) (m : List Host.Cell) : Prop :=
  u.tile s.cur.tile = t.nextSeq ∧ u.mem = m ∧ u.plots = s.plots ∧
  ∀ k, k ≠ s.cur.tile → u.tile k = { s.tile k with inbox := (u.tile k).inbox }

end Sys2Proof.Claims

open Sys2Proof Sys2Proof.Machine Sys2Proof.Claims

/-- MMA and MMAZ with legal operands and a free engine start: pass 0 runs on the accumulator with the writes under way
to it made, for MMAZ on zero, pass 1 comes after half the occupancy, the array is held for the occupancy and the accumulator for eight sc more; with the array in use they take BUSY 0x43, with their half
being loaded 0x46, MMA on an accumulator of the other mode 0x45, and MMAZ on one in flight 0x44 (16 R313-R318, 17
R325). -/
def Obligations.MatrixOperationsStart : Prop :=
  ∀ (s : State) (f : XMma) (occ : Nat), s.down = false → matOk (issuer s) f → occ = occupancy f.fa f.fb f.dmode →
    let same := (issuer s).regs.accMode.getLsbD f.acc.toNat = pairI32 f.fa f.fb
    let held := flying (issuer s) f.acc.toNat s.env.now ∨ moving (issuer s) f.acc.toNat s.env.now
    ((issuer s).mx.array ≤ s.env.now → halfLoad (issuer s) f.half ≤ s.env.now →
      (same → ∃ u t, exec (.mma f) s = .next u ∧ counts s u t ∧ matStarted s f occ false t ∧
        t.regs.accMode = (issuer s).regs.accMode) ∧
      (same ∨ ¬ held → ∃ u t, exec (.mmaz f) s = .next u ∧ counts s u t ∧ matStarted s f occ true t ∧
        ∀ i < 8, t.regs.accMode.getLsbD i =
          if i = f.acc.toNat then pairI32 f.fa f.fb else (issuer s).regs.accMode.getLsbD i)) ∧
    (s.env.now < (issuer s).mx.array → exec (.mma f) s = .next (trapped s (busy 0x43 0)) ∧
      exec (.mmaz f) s = .next (trapped s (busy 0x43 0))) ∧
    ((issuer s).mx.array ≤ s.env.now →
      (¬ same → exec (.mma f) s = .next (trapped s (busy 0x45 f.acc.toNat))) ∧
      (¬ same → held → exec (.mmaz f) s = .next (trapped s (busy 0x44 f.acc.toNat))) ∧
      (same → s.env.now < halfLoad (issuer s) f.half → exec (.mma f) s = .next (trapped s (busy 0x46 0)) ∧
        exec (.mmaz f) s = .next (trapped s (busy 0x46 0))))

/-- MSEQ with a legal parameter word, legal steps and a free engine starts its first step, whose pass 1 and whose
successor, or its end, are under way, and holds the array for all of them; reserved bits of the word that are not zero give UNDEF with REASON 1, and the array in use BUSY 0x43 (17
R328-R330). -/
def Obligations.MseqStartsItsSteps : Prop :=
  ∀ (s : State) (f : XSeq) (w : BitVec 64) (occ n : Nat), s.down = false → w = (issuer s).rs f.sp →
    occ = occupancy f.fa f.fb f.dmode → n = w.toNat / 2 ^ 33 % 2 ^ 12 + 1 →
    (w.toNat / 2 ^ 45 ≠ 0 ∨ w.getLsbD 21 = true ∨ w.toNat % 2 ^ 10 ≠ 0 →
      exec (.mseq f) s = .next (trapped s (undef 1 s.cur.slot))) ∧
    (w.toNat / 2 ^ 45 = 0 → w.getLsbD 21 = false → w.toNat % 2 ^ 10 = 0 → matCombo f.fa f.fb f.dmode = none →
      viewIsRow f.av = true → f.ksel.toNat < rowBlocks f.fa →
      (∀ i < n, matPlace s.env f.fb f.dmode (seqStep f (seqParam w) i).arow (seqStep f (seqParam w) i).acc
        (seqStep f (seqParam w) i).goff = true) →
      (s.env.now < (issuer s).mx.array → exec (.mseq f) s = .next (trapped s (busy 0x43 0))) ∧
      ((issuer s).mx.array ≤ s.env.now → halfLoad (issuer s) (w.getLsbD 20) ≤ s.env.now →
        seqBusy (issuer s) s.env.now (pairI32 f.fa f.fb) ((List.range n).map (seqStep f (seqParam w)))
          (issuer s).regs = none →
        ∃ u, exec (.mseq f) s = .next u ∧ (u.tile s.cur.tile).mx.array = s.env.now + n * occ ∧
          (u.tile s.cur.tile).regs.acc = (issuer s).regs.acc ∧ (u.tile s.cur.tile).regs.vrow = (issuer s).regs.vrow ∧
          (u.tile s.cur.tile).mx.mseq =
            some ⟨s.cur.addr, f, w, 1, (((issuer s).mx.mseq).map (·.cp)).getD 0⟩ ∧
          (u.tile s.cur.tile).pend = (pushed s [
            firstPass (issuer s) (stepOp (issuer s) f w occ 0) (seqStep f (seqParam w) 0).zero,
            (occ, if n = 1 then .mseqEnd 1 else .mseqStep 1)] (issuer s)).pend ∧
          (∀ m, m ≠ s.cur.tile → u.tile m = s.tile m) ∧
          ∀ i < n, s.env.now + i * occ + occ + 8 ≤ aget 0 (u.tile s.cur.tile).mx.flight (seqStep f (seqParam w) i).acc))

/-- MZERO, MRD and MWR on an accumulator that is not in flight move it, and take BUSY 0x44 otherwise; KSET and KONE
set latches; a view that is no row takes RESCOMBO with REASON 3 (17 R332-R334). -/
def Obligations.AccumulatorMovesAndLatches : Prop :=
  ∀ (s : State) (f : XMove) (acc : BitVec 3) (i32 bank side st : Bool) (v : View) (r : BitVec 3), s.down = false →
    (¬ flying (issuer s) acc.toNat s.env.now → ¬ moving (issuer s) acc.toNat s.env.now →
      ∃ t, exec (.mzero acc i32 r) s = .next (s.setTile s.cur.tile t) ∧
        t = { (pushed s [(2, .accFill acc.toNat)] (issuer s)).nextSeq with mx := t.mx, regs := t.regs } ∧
        s.env.now + 2 ≤ aget 0 t.mx.flight acc.toNat ∧ t.regs = { (issuer s).regs with accMode := t.regs.accMode } ∧
        ∀ i < 8, t.regs.accMode.getLsbD i = if i = acc.toNat then i32 else (issuer s).regs.accMode.getLsbD i) ∧
    (flying (issuer s) acc.toNat s.env.now ∨ moving (issuer s) acc.toNat s.env.now →
      exec (.mzero acc i32 r) s = .next (trapped s (busy 0x44 acc.toNat))) ∧
    (viewIsRow f.av = true → ¬ flying (issuer s) f.acc.toNat s.env.now →
      (¬ moving (issuer s) f.acc.toNat s.env.now → exec (.mrd f) s = .next (begun s
        [(4, .cells (viewRowNo f.av) allLanes ((issuer s).accRow f.acc.toNat f.mrow.toNat))])) ∧
      ∃ t, exec (.mwr f) s = .next (s.setTile s.cur.tile t) ∧
        t = { (pushed s [(4, .accRow f.acc.toNat f.mrow.toNat ((issuer s).vrow (viewRowNo f.av)))] (issuer s)).nextSeq with
          mx := t.mx } ∧ aget 0 t.mx.moving f.acc.toNat = s.env.now + 4) ∧
    (viewIsRow f.av = true →
      (flying (issuer s) f.acc.toNat s.env.now ∨ moving (issuer s) f.acc.toNat s.env.now →
        exec (.mrd f) s = .next (trapped s (busy 0x44 f.acc.toNat))) ∧
      (flying (issuer s) f.acc.toNat s.env.now → exec (.mwr f) s = .next (trapped s (busy 0x44 f.acc.toNat)))) ∧
    (viewIsRow f.av = false → exec (.mrd f) s = .next (trapped s (rescombo 3 s.cur.slot)) ∧
      exec (.mwr f) s = .next (trapped s (rescombo 3 s.cur.slot))) ∧
    (viewIsRow v = true → exec (.kset bank side v st) s = .next (begun s
      [(3, .latch (2 * bank.toNat + side.toNat) (((issuer s).vrow (viewRowNo v)).setWidth 512))])) ∧
    (viewIsRow v = false → exec (.kset bank side v st) s = .next (trapped s (rescombo 3 s.cur.slot))) ∧
    ∃ u : Gran, (∀ i < 64, u.extractLsb' (8 * i) 8 = 127) ∧
      exec (.kone bank) s = .next (begun s [(3, .latch (2 * bank.toNat) u), (3, .latch (2 * bank.toNat + 1) u)])

/-- ACT, PRE, PREA, REF and REFB that pass their checks change the records of the banks they name in the way of their
table and nothing else of the tile but its command window; one that fails takes its vault trap; on a stratum that is
not open that is DBLOCK 0x30 (04 R79, R80, R94, 05 R104). The sub-code of several failing checks is the lowest
(DEDUCED, log entry 16). -/
def Obligations.VaultCommandsChangeTheirRecords : Prop :=
  ∀ (s : State) (i : Instr) (op : DOp) (st : BitVec 2) (bk : BitVec 4) (row : BitVec 12), s.down = false →
    commandRow i = some (op, st, bk, row) →
    (dCheck s.env (issuer s).vault op st.toNat bk.toNat row.toNat = none →
      ∃ u t, exec i s = .next u ∧ counts s u t ∧ t = { (issuer s).nextSeq with vault := t.vault } ∧
        recordsAfter s op st bk ((issuer s).vault.base st.toNat + row.toNat) t.vault ∧
        t.vault.vwb = (issuer s).vault.vwb ∧ t.vault.vwl = (issuer s).vault.vwl ∧
        t.vault.svcMark = (issuer s).vault.svcMark) ∧
    (∀ tr, dCheck s.env (issuer s).vault op st.toNat bk.toNat row.toNat = some tr → exec i s = .next (trapped s tr)) ∧
    ((sget 0 (issuer s).vault.vwb st.toNat).getLsbD 15 = false → exec i s = .next (trapped s
      (vaultTrap 0x08 s.cur.addr 0x30 st.toNat (if op = .prea ∨ op = .ref then 0 else bk.toNat)
        (if op = .act then row.toNat else 0) s.cur.slot))) ∧
    (op = .act → (sget 0 (issuer s).vault.vwb st.toNat).getLsbD 15 = true →
      (sget 0 (issuer s).vault.vwb st.toNat).getLsbD 14 = false → (issuer s).vault.d0 = none →
      (issuer s).vault.base st.toNat + row.toNat ≤ (issuer s).vault.limit st.toNat →
      (∀ k < 16, (issuer s).vault.bank (16 * st.toNat + k) = Bank.reset) →
      ∃ u, exec i s = .next u ∧ ((u.tile s.cur.tile).vault.bank (16 * st.toNat + bk.toNat)).state = 1)

/-- RD, WR, RDA and WRA that pass their checks and whose port is free change the records of their bank and begin their
landing at t + 56 or their sample at t + 12; one that fails takes its vault trap (05 R104-R106). The sub-code of several
failing checks is the lowest (DEDUCED, log entry 16). -/
def Obligations.ColumnCommandsBeginTheirTransfer : Prop :=
  ∀ (s : State) (i : Instr) (op : DOp) (f : DCol) (rs : List Resv) (row : Nat), s.down = false →
    columnRow i = some (op, f) →
    row = ((issuer s).vault.bank (16 * f.st.toNat + f.bk.toNat)).row.toNat →
    (dCheck s.env (issuer s).vault op f.st.toNat f.bk.toNat 0 = none →
      placed s [⟨s.env.now + (if op.reads then 56 else 12), op.reads, f.spad.toNat⟩] rs →
      ∃ u t, exec i s = .next u ∧ counts s u t ∧
        t = { (pushed s (if op.reads
            then [(56, .land f.st.toNat f.bk.toNat row ((row + 4096 - (issuer s).vault.base f.st.toNat) % 4096) f.col.toNat
              f.spad.toNat)]
            else [(12, .sample f.st.toNat f.bk.toNat row f.col.toNat f.spad.toNat)])
          (reservedTile (issuer s) rs (issuer s).tags)).nextSeq with vault := t.vault } ∧
        recordsAfter s op f.st f.bk 0 t.vault ∧ t.vault.vwb = (issuer s).vault.vwb) ∧
    (∀ tr, dCheck s.env (issuer s).vault op f.st.toNat f.bk.toNat 0 = some tr → exec i s = .next (trapped s tr))

/-- SDRV reads its operand in its issue sc and drives the parts on consecutive lanes with stamp SCYC, valid and no end
token; SEOS drives end tokens. They reach the neighbour of the same plot after the hop time and change no register;
operands and groups of another shape take RESCOMBO with REASON 3, and a scratchpad operand outside the address rule
ALIGNF (11 R204-R208, R211). -/
def Obligations.DrivesReachTheNeighbour : Prop :=
  ∀ (s : State) (g : NGrp) (r : BitVec 10) (k : BitVec 6), s.down = false →
    (groupOk s g r.toNat → ∃ u, exec (.sdrv g (.row (.row r))) s = .next u ∧ u.mem = s.mem ∧
      sends s u g.dir (flows s g.dir g.lane.toNat (BitVec.ofNat 16 s.env.now) false
        ((List.range (width g)).map (partOfRow (issuer s) r.toNat))) ∧
      (u.tile s.cur.tile).regs = (issuer s).regs ∧ (u.tile s.cur.tile).seq = (issuer s).seq) ∧
    (g.lane.toNat + width g ≤ 16 → width g = 1 → ∃ u, exec (.sdrv g (.scalar k)) s = .next u ∧ u.mem = s.mem ∧
      sends s u g.dir (flows s g.dir g.lane.toNat (BitVec.ofNat 16 s.env.now) false [((issuer s).rs k).setWidth 256]) ∧
      (u.tile s.cur.tile).regs = (issuer s).regs) ∧
    (g.lane.toNat + width g ≤ 16 → width g = 1 → inSpad ((issuer s).rs k).toNat 32 32 → ∀ rs tags,
      readable s (portsOf s.env.now false ((issuer s).rs k).toNat 32) ((issuer s).rs k).toNat 32 rs tags →
      ∃ u, exec (.sdrv g (.spad k)) s = .next u ∧ u.mem = s.mem ∧
        sends s u g.dir (flows s g.dir g.lane.toNat (BitVec.ofNat 16 s.env.now) false
          [BitVec.ofNat 256 (leNat (bytesAt s ((issuer s).rs k).toNat 32))])) ∧
    (g.lane.toNat + width g ≤ 16 → ∃ u, exec (.seos g) s = .next u ∧ u.mem = s.mem ∧
      sends s u g.dir (flows s g.dir g.lane.toNat (BitVec.ofNat 16 s.env.now) true (List.replicate (width g) 0)) ∧
      (u.tile s.cur.tile).regs = (issuer s).regs) ∧
    (16 < g.lane.toNat + width g → exec (.seos g) s = .next (trapped s (rescombo 3 s.cur.slot))) ∧
    (¬ groupOk s g r.toNat → exec (.sdrv g (.row (.row r))) s = .next (trapped s (rescombo 3 s.cur.slot))) ∧
    (∀ v : View, viewIsRow v = false → exec (.sdrv g (.row v)) s = .next (trapped s (rescombo 3 s.cur.slot))) ∧
    (16 < g.lane.toNat + width g ∨ 1 < width g →
      exec (.sdrv g (.scalar k)) s = .next (trapped s (rescombo 3 s.cur.slot)) ∧
      exec (.sdrv g (.spad k)) s = .next (trapped s (rescombo 3 s.cur.slot))) ∧
    (g.lane.toNat + width g ≤ 16 → width g = 1 → ¬ inSpad ((issuer s).rs k).toNat 32 32 →
      exec (.sdrv g (.spad k)) s = .next (trapped s (alignf s.cur.slot ((issuer s).rs k).toNat)))

/-- STAP, SFWD and SRED complete where each lane holds a value with the expected stamp: STAP writes the values at t + 2, or
into the scratchpad in its own sc, SFWD re-drives them unchanged and writes them too but for end tokens, and SRED drives
the sums of the values and its operand with its own stamp and raises their flags at t + 2, or re-drives end tokens; none
changes anything else (11 R209-R212). A tap of an empty lane takes SLIP 0xA0, of a value with another stamp 0xA1, and a
STAP of an end token 0xA2; operands and groups of another shape take RESCOMBO with REASON 3, and a scratchpad operand
outside the address rule ALIGNF (11 R207, R213, R214). -/
def Obligations.TapsForwardsAndReductions : Prop :=
  (∀ (s : State) (g : NGrp) (o : NOpnd) (st : Stamp) (od : Dir) (ol : BitVec 4) (rf : BitVec 2) (fs : List Flow),
    s.down = false → opndOk s g o → ol.toNat + width g ≤ 16 →
    (∀ eos, taps s g st eos fs → spadOf s o = none →
      (eos = false → exec (.stap g o st) s = .next (begun s (storesOf s (fs.map (·.data)) o))) ∧
      (∃ u, exec (.sfwd g o st od ol) s = .next u ∧ sends s u od (passedOn s od ol.toNat fs) ∧
        nDone s u (pushed s ((if eos then [] else storesOf s (fs.map (·.data)) o) ++ underWay s od ol.toNat (width g))
          (issuer s)) s.mem) ∧
      (o ≠ .none → ∃ u, exec (.sred g o st od ol rf) s = .next u ∧
        (eos = true → sends s u od (passedOn s od ol.toNat fs) ∧
          nDone s u (pushed s (underWay s od ol.toNat (width g)) (issuer s)) s.mem) ∧
        (eos = false →
          sends s u od (flows s od ol.toNat (BitVec.ofNat 16 s.env.now) false ((sumsOf s rf fs o).map (·.1))) ∧
          nDone s u (pushed s ((2, .flags (allFlags ((sumsOf s rf fs o).map (·.2)))) :: underWay s od ol.toNat (width g))
            (issuer s)) s.mem))) ∧
    (∀ a eos rs tags, spadOf s o = some a → inSpad a 32 32 → taps s g st eos fs →
      (writable s (portsOf s.env.now true a 32) a 32 rs tags → eos = false →
        (∃ u, exec (.stap g o st) s = .next u ∧ nDone s u (reservedTile (issuer s) rs tags) u.mem ∧
          storedAt s.mem u.mem (2 ^ 48 + s.cur.tile * 2 ^ 20 + a) (leBytes 32 ((fs.map Flow.data).headD 0).toNat)) ∧
        (∃ u, exec (.sfwd g o st od ol) s = .next u ∧ sends s u od (passedOn s od ol.toNat fs) ∧
          nDone s u (pushed s (underWay s od ol.toNat (width g)) (reservedTile (issuer s) rs tags)) u.mem ∧
          storedAt s.mem u.mem (2 ^ 48 + s.cur.tile * 2 ^ 20 + a) (leBytes 32 ((fs.map Flow.data).headD 0).toNat))) ∧
      (placed s (portsOf s.env.now true a 32) rs → eos = true →
        ∃ u, exec (.sfwd g o st od ol) s = .next u ∧ sends s u od (passedOn s od ol.toNat fs) ∧
          nDone s u (pushed s (underWay s od ol.toNat (width g)) (reservedTile (issuer s) rs (issuer s).tags)) s.mem) ∧
      (readable s (portsOf s.env.now false a 32) a 32 rs tags → ∃ u, exec (.sred g o st od ol rf) s = .next u ∧
        (eos = true → sends s u od (passedOn s od ol.toNat fs) ∧
          nDone s u (pushed s (underWay s od ol.toNat (width g)) (reservedTile (issuer s) rs tags)) s.mem) ∧
        (eos = false →
          sends s u od (flows s od ol.toNat (BitVec.ofNat 16 s.env.now) false ((sumsOf s rf fs o).map (·.1))) ∧
          nDone s u (pushed s ((2, .flags (allFlags ((sumsOf s rf fs o).map (·.2)))) :: underWay s od ol.toNat (width g))
            (reservedTile (issuer s) rs tags)) s.mem))) ∧
    ((∀ a, spadOf s o = some a → inSpad a 32 32) →
      (onLane s g g.lane.toNat = none → ∀ i ∈ [Instr.stap g o st, .sfwd g o st od ol, .sred g o st od ol rf],
        exec i s = .next (trapped s (slipStream 0xA0 (expected s st) none g.dir g.lane.toNat 13))) ∧
      (∀ f, onLane s g g.lane.toNat = some f →
        (f.stamp ≠ expected s st → ∀ i ∈ [Instr.stap g o st, .sfwd g o st od ol, .sred g o st od ol rf],
          exec i s = .next (trapped s (slipStream 0xA1 (expected s st) (some f) g.dir g.lane.toNat 13))) ∧
        (f.stamp = expected s st → f.eos = true →
          exec (.stap g o st) s = .next (trapped s (slipStream 0xA2 (expected s st) (some f) g.dir g.lane.toNat 13))))) ∧
    (∀ a, spadOf s o = some a → ¬ inSpad a 32 32 →
      ∀ i ∈ [Instr.stap g o st, .sfwd g o st od ol, .sred g o st od ol rf],
        exec i s = .next (trapped s (alignf s.cur.slot a)))) ∧
  (∀ (s : State) (g : NGrp) (o : NOpnd) (st : Stamp) (od : Dir) (ol : BitVec 4) (rf : BitVec 2), s.down = false →
    (¬ opndOk s g o → exec (.stap g o st) s = .next (trapped s (rescombo 3 s.cur.slot))) ∧
    (¬ opndOk s g o ∨ 16 < ol.toNat + width g →
      exec (.sfwd g o st od ol) s = .next (trapped s (rescombo 3 s.cur.slot)) ∧
      exec (.sred g o st od ol rf) s = .next (trapped s (rescombo 3 s.cur.slot)))) ∧
  (∀ a b : BitVec 256, (addParts 1 a b).2 = fNone ∧
    ∀ e < 8, (addParts 1 a b).1.extractLsb' (32 * e) 32 = a.extractLsb' (32 * e) 32 + b.extractLsb' (32 * e) 32)

namespace Sys2Proof.Claims
open Sys2Proof.Machine

/-! ### Effects as they land (11 R194-R201, 14 R253, 05 R105-R106, 09 R153, 10 R183-R186, 16 R313, 17 R330) -/

/-- What a register effect leaves in the register files: what each register reads as, and that every other is as before.
No other effect satisfies it. -/
def landsAs (a : Act) (g h : Regs) : Prop :=
  match a with
  | .scalar false r v => h = { g with sc := h.sc } ∧
      ∀ k, sget 0 h.sc k = if k = r ∧ r ≠ 0 then v else sget 0 g.sc k
  | .scalar true r v => h = { g with ss := h.ss } ∧ ∀ k, sget 0 h.ss k = if k = r then v else sget 0 g.ss k
  | .pred p b => h = { g with preds := h.preds } ∧
      ∀ k < 16, h.preds.getLsbD k = if k = p ∧ p ≠ 0 then b else g.preds.getLsbD k
  | .preds v => h = { g with preds := h.preds } ∧ ∀ k < 16, h.preds.getLsbD k = (k == 0 || v.getLsbD k)
  | .cells row mask v => h = { g with vrow := h.vrow } ∧ (∀ k, k ≠ row → sget 0 h.vrow k = sget 0 g.vrow k) ∧
      ∀ c < 64, rowCell (sget 0 h.vrow row) c =
        if mask.getLsbD c then rowCell v c else rowCell (sget 0 g.vrow row) c
  | .comps d v => h = { g with dir := h.dir } ∧ ∀ k, sget 0 h.dir k = if k = d then v else sget 0 g.dir k
  | .norm d v => h = { g with norm := h.norm } ∧
      ∀ k, sget normZero h.norm k = if k = d then v else sget normZero g.norm k
  | .flags f => h = { g with flags := g.flags ||| f }
  | .accRow b m v => h = { g with acc := h.acc } ∧ ∀ k, sget 0 h.acc k = if k = 64 * b + m then v else sget 0 g.acc k
  | .accFill b => h = { g with acc := h.acc } ∧
      ∀ k, sget 0 h.acc k = if k / 64 = b then 0 else sget 0 g.acc k
  | .latch b v => h = { g with lat := h.lat } ∧
      ∀ k, sget unityLatch h.lat k = if k = b then v else sget unityLatch g.lat k
  | _ => False
/-- The effects of landsAs. -/
def isRegister : Act → Bool
  | .scalar _ _ _ | .pred _ _ | .preds _ | .cells _ _ _ | .comps _ _ | .norm _ _ | .flags _ | .accRow _ _ _ | .accFill _
  | .latch _ _ => true
  | _ => false
/-- The first effect of a tile is due, and the effects behind it. -/
def headDue (s : State) (n : Nat) (p : Pend) (r : List Pend) : Prop :=
  (s.tile n).pend = p :: r ∧ p.due ≤ s.now n
/-- A read of bytes of a tile's scratchpad that is due in its port sc, with the tile's turn taken and no word in error. -/
def readDue (s : State) (n : Nat) (p : Pend) (r : List Pend) : Prop :=
  headDue s n p r ∧ p.rank = p.act.rank ∧ (s.tile n).turn = true ∧ s.errs = [] ∧ s.soft = []
/-- Bytes of a tile's scratchpad. -/
def tileBytes (s : State) (n a len : Nat) : List Byte := Memory.read s.mem (2 ^ 48 + n * 2 ^ 20 + a) len
/-- Further effects of an operation whose effect p takes place: each due in its sc, behind those that come before it. -/
def followed (p : Pend) (l : List (Nat × Act)) (r : List Pend) : List Pend :=
  l.foldl (fun q e => pendInsert ⟨e.1, e.2.rank, p.seq, p.addr, p.slot, e.2⟩ q) r
/-- The lanes of a gather are read one after another, no claim against any of them; they leave the tags given. -/
def lanesClaimed (n : Nat) : List (Nat × Nat) → State → Store 11 → Prop
  | [], s, tags => (s.tile n).tags = tags
  | l :: ls, s, tags => ∃ u, s.claim n n .read (gransOf l.2 4) = .ok u ∧
      lanesClaimed n ls (s.mapTile n (fun t => { t with tags := u })) tags
/-- A read of a late operation has taken place: no byte of memory, no register but those of the weight buffers and no
other tile has changed. -/
def readMade (s t : State) (n : Nat) : Prop :=
  t.mem = s.mem ∧ (t.tile n).regs = { (s.tile n).regs with wb := (t.tile n).regs.wb } ∧
  (t.tile n).seq = (s.tile n).seq ∧ (t.tile n).mx = (s.tile n).mx ∧ ∀ m, m ≠ n → t.tile m = s.tile m
/-- The unit vector of the rows that an LDD has read, as a group from register d on, whose operation issued at sc t (10
R184). -/
def groupRead (d t : Nat) (rows : List Row) : List (Nat × Act) :=
  let k := rows.length
  let g := renorm (rows.flatMap (fun v => (List.range 128).map (fun i => q15Val (rowElem v 16 i)))) (-15) 0
  (writeComps d k g.1).map (fun a => (t + 10 + 2 * k, a)) ++
    (writeNorm d k g.2.1 ++ [Act.flags g.2.2]).map (fun a => (t + 12 + 2 * k, a))
/-- What an effect of a matrix unit, a store or a barrier cannot change in its tile. -/
def sameCore (t u : Tile) : Prop :=
  u.seq = t.seq ∧ u.trap = t.trap ∧ u.vault = t.vault ∧ u.tags = t.tags ∧ u.wins = t.wins ∧ u.bars = t.bars ∧
  u.dyn = t.dyn ∧ u.inbox = t.inbox ∧ u.plot = t.plot

end Sys2Proof.Claims

open Sys2Proof Sys2Proof.Machine Sys2Proof.Claims

/-- A register effect lands in its file when its sc has come: its register reads as the new value, s0 and p0 discard
it, every other register and every other part of the tile but the record of landings is as before (11 R194-R201, 14
R253). A MOVT lands in the register of its id: FLAGS, RMODE, where a reserved code stores 0, the three registers of the
generator, and in supervisor mode the trap registers, the windows and the records of the banks, which it replaces as
written (11 R201, 12 R225, 14 R268, 04 R79, R84). A MOVT of TVAL keeps all 64 bits (DESIGN CHOICE, log entry 66), and one
of a record whose REFDUE holds 0x3FFF is kept as written (DEDUCED, log entry 26). -/
def Obligations.ResultsLandInTheirRegisters : Prop :=
  (∀ (s : State) (n : Nat) (p : Pend) (r : List Pend), s.down = false → headDue s n p r → p.rank = p.act.rank →
    isRegister p.act = true →
    ∃ t, exec (.exposedResultLands n) s = .next (s.setTile n t) ∧ t.pend = r ∧ landsAs p.act (s.tile n).regs t.regs ∧
      sameCore (s.tile n) t ∧ t.mx = (s.tile n).mx ∧ t.ports = (s.tile n).ports) ∧
  (∀ (s : State) (n id : Nat) (v : BitVec 64) (p : Pend) (r : List Pend), s.down = false → headDue s n p r →
    p.rank = p.act.rank → p.act = .special id v →
    ∃ t, exec (.exposedResultLands n) s = .next (s.setTile n t) ∧ t.pend = r ∧ t.seq = (s.tile n).seq ∧
      t.regs.sc = (s.tile n).regs.sc ∧ t.regs.vrow = (s.tile n).regs.vrow ∧ t.mx = (s.tile n).mx ∧
      t.regs.flags = (if id = 0x10 then v.setWidth 8 else (s.tile n).regs.flags) ∧
      t.regs.rngKey0 = (if id = 0x12 then v.setWidth 32 else (s.tile n).regs.rngKey0) ∧
      t.regs.rngKey1 = (if id = 0x13 then v.setWidth 32 else (s.tile n).regs.rngKey1) ∧
      t.regs.rmode = (if id = 0x11 then (if v.toNat % 8 < 6 then v.setWidth 3 else 0) else (s.tile n).regs.rmode) ∧
      t.regs.rngCtr = (if id = 0x14 then (v >>> 2) <<< 2 else (s.tile n).regs.rngCtr) ∧
      t.trap.tcause = (if id = 0x20 then (v.setWidth 17).setWidth 64 else (s.tile n).trap.tcause) ∧
      (∀ k < 64, id = 0x100 + k → (t.vault.bank k).toBits = v) ∧
      (¬ (0x140 ≤ id ∧ id < 0x144) → ∀ k, id ≠ 0x100 + k → t.vault.bank k = (s.tile n).vault.bank k) ∧
      t.trap.tpc = (if id = 0x21 then v else (s.tile n).trap.tpc) ∧
      t.trap.tval = (if id = 0x22 then v else (s.tile n).trap.tval) ∧
      t.trap.tscyc = (if id = 0x23 then v else (s.tile n).trap.tscyc) ∧
      t.trap.evec = (if id = 0x24 then v else (s.tile n).trap.evec) ∧ t.trap.sup = (s.tile n).trap.sup ∧
      (∀ k < 4, id = 0x144 + k → t.vault.limit k = v.toNat % 4096) ∧
      (∀ k < 4, id = 0x140 + k → t.vault.base k = v.toNat % 4096 ∧ t.vault.en k = v.getLsbD 15))

/-- An integer result of a scalar slot lands in no sc before its latency is over, in which every register reads as
before, and can be read in the sc in which it is; s0 reads 0 all the while (11 R194, 13 R241, 14 R253). -/
def Obligations.AResultIsReadAfterItsLatency : Prop :=
  ∀ (s : State) (i : Instr) (d : BitVec 6) (lat k : Nat) (v : BitVec 64) (pl : Plot), s.down = false →
    integerRow (issuer s) i = some (d, lat, v) → (issuer s).plot = some k → afind s.plots k = some pl →
    (issuer s).pend = [] → (issuer s).trap.sup = false →
    ∃ t w, exec i s = .next t ∧ (∀ c, (t.tile s.cur.tile).rs c = (issuer s).rs c) ∧
      (∀ j < lat, ∃ u,
        exec (.exposedResultLands s.cur.tile) (t.mapPlot k (fun q => { q with scyc := q.scyc + j })) = .next u ∧
        ∀ c, (u.tile s.cur.tile).rs c = (issuer s).rs c) ∧
      exec (.exposedResultLands s.cur.tile) (t.mapPlot k (fun q => { q with scyc := q.scyc + lat })) = .next w ∧
      ∀ c, (w.tile s.cur.tile).rs c = if c = d ∧ d ≠ 0 then v else (issuer s).rs c

/-- A static store takes place in its port sc: with no claim against it, its bytes are stored at their place in the
tile's scratchpad and every other byte of memory is as before; a store that races changes no byte (09 R153, R166). A
vault read lands its column in its granule, and a write samples its granule into its column; no other byte of memory
changes (05 R105, R106). A landing from a column with an error that the code corrects counts one correction, and the
error stays in the column (04 R77, 27 R451). The reads of a late operation take place in their port sc too, claimed, and
change no byte of memory: the lanes of a gather are on their way to their row; an atomic claims its word or, racing, does
neither of its accesses, and has its result and the word it stores on their way, the old word being that which an atomic
of the same sc that came first leaves; the next member of a group is read, after the last of which the group is formed;
four granules enter the weight buffer; an STR holds its granule, or the fault of a race (09 R153, R160, R166, 10
R183-R190). -/
def Obligations.StoresAndVaultTransfersMoveTheirBytes : Prop :=
  (∀ (s : State) (n a : Nat) (b : List Byte) (c : Bool) (p : Pend) (r : List Pend), s.down = false → headDue s n p r →
    p.rank = p.act.rank → p.act = .spadWr a b c →
    (∀ tags, c = true → s.claim n n .write (gransOf a b.length) = .ok tags →
      ∃ t, exec (.staticPortAccess n) s = .next t ∧ storedAt s.mem t.mem (2 ^ 48 + n * 2 ^ 20 + a) b ∧
        (t.tile n).tags = tags ∧ (t.tile n).regs = (s.tile n).regs ∧ (t.tile n).pend = r ∧
        ∀ m, m ≠ n → t.tile m = s.tile m) ∧
    (c = false → ∃ t, exec (.staticPortAccess n) s = .next t ∧ storedAt s.mem t.mem (2 ^ 48 + n * 2 ^ 20 + a) b ∧
        (t.tile n).tags = (s.tile n).tags ∧ (t.tile n).regs = (s.tile n).regs ∧ ∀ m, m ≠ n → t.tile m = s.tile m) ∧
    (∀ e, c = true → s.claim n n .write (gransOf a b.length) = .error e →
      ∃ t, exec (.staticPortAccess n) s = .next t ∧ t.mem = s.mem ∧
        (t.tile n).trap.pending = (s.tile n).trap.pending ++ [(3, raceTrap p.addr p.slot e.1 e.2.1 e.2.2, none)])) ∧
  (∀ (s : State) (n st bk row lrow col g : Nat) (p : Pend) (r : List Pend) (tags : Store 11), s.down = false →
    headDue s n p r → p.rank = p.act.rank → s.errs = [] →
    (p.act = .land st bk row lrow col g → s.claim n n .write [g] = .ok tags →
      ∃ t, exec (.vaultLanding n) s = .next t ∧ storedAt s.mem t.mem (2 ^ 48 + n * 2 ^ 20 + 64 * g)
        (Memory.read s.mem (n * 2 ^ 29 + st * 2 ^ 27 + bk * 2 ^ 23 + row * 2 ^ 11 + col * 64) 64) ∧
        (t.tile n).regs = (s.tile n).regs ∧ (t.tile n).tags = tags ∧ t.soft = s.soft ∧
        (s.soft = [] → (t.tile n).corrections = (s.tile n).corrections) ∧
        (s.soft = [n * 2 ^ 29 + st * 2 ^ 27 + bk * 2 ^ 23 + row * 2 ^ 11 + col * 64] → n < 512 → st < 4 → bk < 16 →
          row < 4096 → col < 32 → (t.tile n).corrections = (s.tile n).corrections + 1)) ∧
    (p.act = .sample st bk row col g → (s.tile n).turn = true → s.claim n n .read [g] = .ok tags →
      ∃ t, exec (.wrSample n) s = .next t ∧
        storedAt s.mem t.mem (n * 2 ^ 29 + st * 2 ^ 27 + bk * 2 ^ 23 + row * 2 ^ 11 + col * 64)
          (Memory.read s.mem (2 ^ 48 + n * 2 ^ 20 + 64 * g) 64) ∧
        (t.tile n).regs = (s.tile n).regs ∧ (t.tile n).tags = tags)) ∧
  (∀ (s : State) (n row : Nat) (ls : List (Nat × Nat)) (p : Pend) (r : List Pend) (tags : Store 11), s.down = false →
    readDue s n p r → p.act = .gather row ls → ls ≠ [] → ls.Pairwise (fun a b => a.1 < b.1) → (∀ l ∈ ls, l.1 < 64) →
    lanesClaimed n ls s tags →
    ∃ (t : State) (v : Row), exec (.staticPortAccess n) s = .next t ∧ readMade s t n ∧ (t.tile n).tags = tags ∧
      (t.tile n).regs.wb = (s.tile n).regs.wb ∧ (∀ l ∈ ls, rowCell v l.1 = leNat (tileBytes s n l.2 4)) ∧
      (t.tile n).pend = followed p [(p.due + 11 - ((ls.head?.map (·.1)).getD 0) / 16,
        .cells row (maskOf (fun j => ls.any (fun l => l.1 == j))) v)] r) ∧
  (∀ (s : State) (n ea w : Nat) (p : Pend) (r : List Pend), s.down = false → headDue s n p r → p.rank = p.act.rank →
    p.act = .atomClaim ea w →
    (∀ tags, s.claim n n .write (gransOf ea w) = .ok tags → ∃ t, exec (.staticPortAccess n) s = .next t ∧
      readMade s t n ∧ (t.tile n).tags = tags ∧ (t.tile n).pend = r) ∧
    (∀ e, s.claim n n .write (gransOf ea w) = .error e → ∃ t, exec (.staticPortAccess n) s = .next t ∧
      readMade s t n ∧ (t.tile n).tags = (s.tile n).tags ∧
      (t.tile n).pend = r.filter (fun q => !(q.seq = p.seq && q.slot = p.slot && q.due = p.due && q.rank = 5)) ∧
      (t.tile n).trap.pending = (s.tile n).trap.pending ++ [(3, raceTrap p.addr p.slot e.1 e.2.1 e.2.2, none)])) ∧
  (∀ (s : State) (n ea rg old : Nat) (op : AtOp) (w64 sup : Bool) (x cmp : BitVec 64) (p : Pend) (r : List Pend),
    s.down = false → readDue s n p r → p.act = .atomRead op w64 ea x cmp sup rg →
    old = leNat ({ s.tile n with pend := r }.underWay (p.due + 1) ea (tileBytes s n ea (wide w64))) →
    ((∀ q ∈ r, ∀ c b, q.act ≠ .spadWr c b false) → old = leNat (tileBytes s n ea (wide w64))) ∧
    ∃ t, exec (.staticPortAccess n) s = .next t ∧ readMade s t n ∧ (t.tile n).tags = (s.tile n).tags ∧
      (t.tile n).regs = (s.tile n).regs ∧ (t.tile n).pend = followed p [
        (p.due + 1, .spadWr ea (leBytes (wide w64) (atomNew op (8 * wide w64) old x.toNat cmp.toNat).1) false),
        (p.due + 6, .scalar sup rg (BitVec.ofNat 64 old)),
        (p.due + 6, .flags (atomNew op (8 * wide w64) old x.toNat cmp.toNat).2)] r) ∧
  (∀ (s : State) (n d k i ea : Nat) (got : List Row) (p : Pend) (r : List Pend) (tags : Store 11), s.down = false →
    readDue s n p r → p.act = .lddRead d k i ea got → got.length = i → i < k →
    s.claim n n .read (gransOf (ea + 256 * i) 256) = .ok tags →
    ∃ t, exec (.staticPortAccess n) s = .next t ∧ readMade s t n ∧ (t.tile n).tags = tags ∧
      (t.tile n).regs = (s.tile n).regs ∧
      (t.tile n).pend = followed p (if i + 1 < k
        then [(p.due + 1, .lddRead d k (i + 1) ea (got ++ [rowOfBytes (tileBytes s n (ea + 256 * i) 256)]))]
        else groupRead d (p.due - i) (got ++ [rowOfBytes (tileBytes s n (ea + 256 * i) 256)])) r) ∧
  (∀ (s : State) (n ea o cnt j : Nat) (half : Bool) (p : Pend) (r : List Pend) (tags : Store 11), s.down = false →
    readDue s n p r → p.act = .ldwbRead half ea o cnt j → j < cnt →
    s.claim n n .read (gransOf (ea + 64 * j) (64 * Nat.min 4 (cnt - j))) = .ok tags →
    ∃ t, exec (.staticPortAccess n) s = .next t ∧ readMade s t n ∧ (t.tile n).tags = tags ∧
      (∀ i < Nat.min 4 (cnt - j), sget 0 (t.tile n).regs.wb (1024 * half.toNat + o + j + i) =
        BitVec.ofNat 512 (leNat (tileBytes s n (ea + 64 * (j + i)) 64))) ∧
      (∀ g, g < 1024 * half.toNat + o + j ∨ 1024 * half.toNat + o + j + Nat.min 4 (cnt - j) ≤ g →
        sget 0 (t.tile n).regs.wb g = sget 0 (s.tile n).regs.wb g) ∧
      (t.tile n).pend = followed p (if j + 4 < cnt then [(p.due + 1, .ldwbRead half ea o cnt (j + 4))] else []) r) ∧
  (∀ (s : State) (n id ea : Nat) (p : Pend) (r : List Pend), s.down = false → readDue s n p r →
    p.act = .strRead id ea →
    (∀ tags, s.claim n n .read (gransOf ea 64) = .ok tags → ∃ t, exec (.staticPortAccess n) s = .next t ∧
      readMade s t n ∧ (t.tile n).tags = tags ∧ (t.tile n).pend = r ∧ (t.tile n).dyn = (s.tile n).dyn.map (fun d =>
        if d.id = id then { d with data := some (tileBytes s n ea 64) } else d)) ∧
    (∀ e, s.claim n n .read (gransOf ea 64) = .error e → ∃ t, exec (.staticPortAccess n) s = .next t ∧
      readMade s t n ∧ (t.tile n).tags = (s.tile n).tags ∧ (t.tile n).pend = r ∧
      (t.tile n).dyn = (s.tile n).dyn.map (fun d => if d.id = id
        then { d with fault := some ⟨0x0F, BitVec.ofNat 8 (e.1 - 0x80), d.va, BitVec.ofNat 9 e.2.2⟩ } else d)))

/-- A weight-buffer load completes without a change of a register; pass 1 runs on the rows that pass 0 left and leaves
its result on its way for eight sc after the occupancy; a result lands in the 64 rows of its accumulator and ORs its
flags; the next step of an MSEQ starts, its pass 1 and its successor, or the end, being under way, keeps every register,
and records a checkpoint where eight steps have passed since the last; its end leaves no MSEQ and records the last
checkpoint and the end in the tile's ring, changing no byte where no ring is set (10 R185, 16 R310-R314, R321, 17 R330, 29
R477, R478). -/
def Obligations.MatrixEngineStepsTakePlace : Prop :=
  ∀ (s : State) (n : Nat) (p : Pend) (r : List Pend), s.down = false → headDue s n p r → p.rank = p.act.rank →
    (∀ h, p.act = .ldwbDone h → ∃ t, exec (.ldwbComplete n) s = .next (s.setTile n t) ∧ t.pend = r ∧
      t.regs = (s.tile n).regs ∧ t.mx = (s.tile n).mx ∧ sameCore (s.tile n) t) ∧
    (∀ x c f, p.act = .pass1 x c f → ∃ t, exec (.mmaPass1Start n) s = .next (s.setTile n t) ∧
      t.pend = followed p [(p.due + (x.occ - x.occ / 2) + 8,
        .ready x.acc ((s.tile n).pass x 1 c).1 (f ||| ((s.tile n).pass x 1 c).2))] r ∧
      t.regs = (s.tile n).regs ∧ sameCore (s.tile n) t) ∧
    (∀ a v f, p.act = .ready a v f → v.length = 64 → ∃ t, exec (.mmaResultReady n) s = .next (s.setTile n t) ∧
      t.pend = r ∧ t.regs = { (s.tile n).regs with acc := t.regs.acc, flags := (s.tile n).regs.flags ||| f } ∧
      (∀ k, sget 0 t.regs.acc k = if k / 64 = a then (v[k % 64]?).getD 0 else sget 0 (s.tile n).regs.acc k) ∧
      sameCore (s.tile n) t) ∧
    (∀ i m, p.act = .mseqStep i → (s.tile n).mx.mseq = some m → ∃ t, exec (.mseqStepStart n) s = .next t ∧
      (t.tile n).regs = (s.tile n).regs ∧ (∀ k, k ≠ n → t.tile k = s.tile k) ∧
      t.mem = (if i % 8 = 0 ∧ m.cp < i then (s.tileRecord n 0x22 p.addr i).mem else s.mem) ∧
      (t.tile n).mx.mseq = some { m with
        addr := p.addr, started := i + 1, cp := if i % 8 = 0 ∧ m.cp < i then i else m.cp } ∧
      ∃ st x, st = seqStep m.f (seqParam m.param) i ∧ x = stepOp (s.tile n) m.f m.param (seqOcc m.f) i ∧
        (t.tile n).pend = followed p [
          (p.due + x.occ / 2, (firstPass { s.tile n with pend := r } x st.zero).2),
          (p.due + x.occ, if i = (seqParam m.param).nstep then .mseqEnd (i + 1) else .mseqStep (i + 1))] r) ∧
    (∀ i, p.act = .mseqEnd i → ∃ t, exec (.mseqStepStart n) s = .next t ∧ (t.tile n).pend = r ∧
      t.mem = ((s.tileRecord n 0x22 p.addr i).tileRecord n 0x21 p.addr i).mem ∧ (s.rings = [] → t.mem = s.mem) ∧
      (t.tile n).regs = (s.tile n).regs ∧ (t.tile n).mx = { (s.tile n).mx with mseq := none } ∧
      ∀ k, k ≠ n → t.tile k = s.tile k)

namespace Sys2Proof.Claims
open Sys2Proof.Machine

/-! ### Steps, encodings and the whole machine -/

/-- The boundary of a tile's sc is past. -/
def boundaryPast (s : State) (n : Nat) : State :=
  s.mapTile n (fun t => { t with trap := { t.trap with pending := [] } })
/-- The state in which the one operation of a bundle issues: its tile's boundary is past, nothing is asked of the
sequencer, and the cursor names the slot, the bundle and the bundle that follows. -/
def fetchedAt (s : State) (n k : Nat) (f : Fetched) : State :=
  { (boundaryPast s n).mapTile n (fun t => { t with seq := { t.seq with ctl := .none } }) with
    cur := { tile := n, slot := k, addr := f.addr, idx := 0, next := f.next } }
/-- Tile n of a running plot is to take its turn in user mode at a bundle of one operation, in slot k and not repeated or
drained; nothing stands at its boundary, no loop ends at the bundle, and no word of the tile is in error. -/
def issuesOne (s : State) (n k : Nat) (f : Fetched) (w1 w2 : Word32) : Prop :=
  s.down = false ∧ s.agenda = [] ∧ s.nextDue = .bundle n ∧
  (∃ pl, s.plotOf n = some pl ∧ pl.st = .running ∧ pl.tt.esp = false) ∧
  (s.tile n).turn = false ∧ s.boundary n = [] ∧ (s.tile n).bad = [] ∧ (s.tile n).trap.sup = false ∧
  (s.tile n).seq.ended = false ∧ (s.tile n).seq.wait = .none ∧ (s.tile n).seq.skip = false ∧ (s.tile n).seq.rep = 0 ∧
  (∀ e, (s.tile n).seq.loops.head? = some e → e.fin ≠ f.addr) ∧ (s.tile n).seq.holdAt ≠ some (s.now n) ∧
  s.fetch n (s.tile n).seq.pc = .ok f ∧ f.headReason = none ∧ f.pres = 2 ^ k ∧ f.keep = 0 ∧ f.ops = [(k, w1, w2)] ∧
  f.rep = 0 ∧ f.drain = false ∧ k < 14
/-- Words written out from the encoding tables: slot class, words, and the operation that they encode. -/
def sampleWords : List (Cls × Word32 × Word32 × Instr) := [
  -- C: a branch two words back; a loop of LARG 3 and END 8 (03 R59, R67)
  (.c, 0x01FFFFFE, 0, .br 0xFFFFFE), (.c, 0x08003008, 0, .loop 3 8),
  -- S: ADDI s1, s2, 5; CMPLT p2, s1, s3; the LI of the worked decoding (03 R60, R68)
  (.s, 0x18042005, 0, .addi 1 2 5), (.s, 0x260810C0, 0, .cmplt 2 1 3), (.s, 0x20100000, 0x1000, .li 4 0x1000),
  -- V: VMUL.bf16.sat v1, a column of panel 2, a broadcast; DADD.g4 d8, d4, d12 (03 R61, R69, 02 R48)
  (.v, 0x03080030, 0x21078028, .vmul ⟨.bf16, .rne, true, .row 1, .col 2 3, .spec 5, 0⟩),
  (.v, 0x46000102, 0x00080060, .dadd ⟨.g4, 8, 4, 12, 0⟩),
  -- F: FSQRT.f32 v2, v7; SDIV s1, s2, s3 (03 R61, R70)
  (.f, 0x03000040, 0x000E0000, .fsqrt ⟨.f32, .rne, .row 2, .row 7, 0⟩), (.f, 0x10000020, 0x00040018, .sdiv ⟨1, 2, 3, 0⟩),
  -- M: LDS.32.sx s7, s2, 0x40 (03 R62, 10 R177)
  (.m, 0x03087006, 0x00020000, .lds true .b32 7 ⟨2, 0x40, 0, 0⟩),
  -- X: MRD v16, a2, 5; K: KSET.col L1, v9 (03 R63, R64, 17 R323, R324)
  (.x, 0x05001000, 0x00202800, .mrd ⟨2, .row 16, 5, false, 0⟩), (.k, 0x01C00900, 0, .kset true true (.row 9) false),
  -- D: the RD of the worked decoding; ACT st2.bk5, 0x123 (03 R65)
  (.d, 0x024CE000, 0x01000000, .rd ⟨1, 3, 7, 0, 128, 0⟩), (.d, 0x019448C0, 0, .act 2 5 0x123 0),
  -- N: SEOS on four lanes east from lane 4 (03 R66, 11 R206)
  (.n, 0x0410000C, 0x00000080, .seos ⟨.east, 4, 2, 0⟩)]

end Sys2Proof.Claims

open Sys2Proof Sys2Proof.Machine Sys2Proof.Claims

/-- A step with something asked for from outside runs the oldest of it, and a step without takes the row that is due:
the turn of a tile is BUNDLE_ISSUE, and a module that has powered down stops. Every operation of a slot runs as its
own meaning on any state: the outcome of exec is the issue that a bundle makes. The agenda and the order of what is
due are the model’s own (DESIGN CHOICE, log entry 3). -/
def Obligations.AStepRunsTheRowThatIsDue : Prop :=
  (∀ s : State,
    (∀ i r, s.agenda = i :: r → step s = exec i { s with agenda := r }) ∧
    (∀ n, s.agenda = [] → s.down = false → s.nextDue = .bundle n → step s = exec (.bundleIssue n) s) ∧
    (s.agenda = [] → s.down = true → step s = .fault .poweredDown)) ∧
  (∀ (s : State) (i : Instr) (cl : Cls), classOf i = some cl →
    exec i s = if cl = .c then settleC (issueOp i) s else settle (issueOp i) s)

/-- The turn of a tile at a bundle of one operation runs what its words decode to: the effects of exec on that
operation, the next bundle behind it, and nothing else; where the operation traps, the tile takes the trap at the
bundle (02 R34, R41, R44, 19 R337). A branch that a tile issues alone takes it to the branch's target (19 R337, R346).
-/
def Obligations.ATurnRunsTheDecodedOperation : Prop :=
  (∀ (s : State) (n k : Nat) (f : Fetched) (w1 w2 : Word32) (i : Instr), issuesOne s n k f w1 w2 → k ≠ 0 →
    decodeOp (s.tile n).panels (slotClass k) w1 w2 = .ok i → classOf i = some (slotClass k) →
    (∀ t, issueOp i (fetchedAt s n k f) = .ok t → ∃ u v, exec i (fetchedAt s n k f) = .next v ∧ step s = .next u ∧
      exec (.bundleIssue n) s = .next u ∧
      u.mem = v.mem ∧ (∀ m, m ≠ n → u.tile m = v.tile m) ∧ (u.tile n).regs = (v.tile n).regs ∧
      (u.tile n).pend = (v.tile n).pend ∧ (u.tile n).mx = (v.tile n).mx ∧ (u.tile n).dyn = (v.tile n).dyn ∧
      (u.tile n).vault.banks = (v.tile n).vault.banks ∧ (u.tile n).seq.pc = f.next ∧ (u.tile n).seq.rep = 0 ∧
      (u.tile n).seq.loops = (s.tile n).seq.loops ∧ (u.tile n).turn = true) ∧
    (∀ tr, issueOp i (fetchedAt s n k f) = .error tr →
      step s = .next (((boundaryPast s n).takeTrap n tr f.addr 0).mapTile n
        (fun t => { t with shown := some (s.showing n) })))) ∧
  (∀ (s : State) (n : Nat) (f : Fetched) (w1 w2 : Word32) (off : BitVec 24), issuesOne s n 0 f w1 w2 →
    decodeOp (s.tile n).panels .c w1 w2 = .ok (.br off) →
    ∃ u, step s = .next u ∧ exec (.bundleIssue n) s = .next u ∧ (u.tile n).seq.pc = wordsOff f.addr off.toInt ∧ (u.tile n).regs = (s.tile n).regs ∧
      (u.tile n).seq.loops = (s.tile n).seq.loops ∧ u.mem = s.mem)

/-- Sample words of every slot class decode to the operations that the encoding tables give them. -/
def Obligations.SampleWordsDecode : Prop :=
  ∀ e ∈ sampleWords, decodeOp 48 e.1 e.2.1 e.2.2.1 = .ok e.2.2.2

/-- Decoding the words of a well-formed operation gives it back, with every field at every value, and the words are as
many as its opcode says (03 R59-R66). -/
def Obligations.DecodeOfEncode : Prop :=
  ∀ (P : Nat) (i : Instr) (cl : Cls), P ≤ 48 → classOf i = some cl → wellFormed P i = true →
    ∃ w1 r, encode i = w1 :: r ∧ decodeOp P cl w1 (r.headD 0) = .ok i ∧ 1 + r.length = opWords cl (fld w1 24 7)

/-- Words that a class accepts, their stop bits clear, are the words of the well-formed operation they decode to: no
two encodings name one operation, and no field is passed over (03 R59-R66, R74). -/
def Obligations.EncodeOfDecode : Prop :=
  ∀ (P : Nat) (cl : Cls) (w1 w2 : Word32) (i : Instr), P ≤ 48 → decodeOp P cl w1 w2 = .ok i →
    w1.getLsbD 31 = false → w2.getLsbD 31 = false → (opWords cl (fld w1 24 7) = 1 → w2 = 0) →
    classOf i = some cl ∧ wellFormed P i = true ∧
    encode i = if opWords cl (fld w1 24 7) = 2 then [w1, w2] else [w1]

/-- Every step from a state whose memory is in canonical form leaves memory in canonical form. The canonical form is
the model’s (DESIGN CHOICE, log entry 2). -/
def Obligations.EveryStepKeepsMemoryCanonical : Prop :=
  ∀ s t : State, Safety.Inv s → step s = .next t → Safety.Inv t

/-- The module at reset: its memory is in canonical form and empty, no plot runs, every bank record, link and the boot
state are as the spec gives them, and p0, FLAGS, RMODE and the trap registers of a tile read their reset values (04
R84, 11 R194-R201, 30 R485, R487). That memory is empty and no plot runs, and the values of registers for which the
spec gives no reset value, are the model’s (DESIGN CHOICE, log entries 1 and 2). -/
def Obligations.ResetValues : Prop :=
  Safety.Inv State.reset ∧ State.reset.mem = [] ∧ State.reset.plots = [] ∧ State.reset.down = false ∧
  (∀ n k, ((State.reset.tile n).vault.bank k) = ⟨0, 0, 0xFF, 0xF, 0x3F, 0x3F, 0, false, 0x3FFF⟩) ∧
  (∀ n, (State.reset.tile n).regs.flags = 0 ∧ (State.reset.tile n).regs.rmode = 0 ∧
    (State.reset.tile n).rp 0 = true ∧ (State.reset.tile n).rs 0 = 0 ∧ (State.reset.tile n).trap.tcause = 0 ∧
    (State.reset.tile n).trap.tpc = 0 ∧ (State.reset.tile n).trap.tval = 0 ∧ (State.reset.tile n).trap.tscyc = 0 ∧
    (∀ d, (State.reset.tile n).normOf d = 0x80000000)) ∧
  (∀ n, (State.reset.link n).peerMod = 0xFF ∧ (State.reset.link n).state = 0) ∧
  State.reset.boot.state = 0 ∧ State.reset.boot.last = 0

namespace Sys2Proof.Claims
open Sys2Proof.Machine

/-- An access of tile n may write the 64 bytes at loc of its scratchpad in this sc: its sides are free, no other request
waits for their bank, and its claim gives the tags (09 R158, R166). -/
def takesItsTurn (s : State) (n loc : Nat) (tags : Store 11) : Prop :=
  loc + 64 ≤ 2 ^ 20 ∧ s.sideFree (2 ^ 48 + n * 2 ^ 20 + loc) 64 true false = true ∧
  (∀ p ∈ (s.tile n).bankQ, p.2 ≠ loc / 64 % 48) ∧ s.claim n n .awrite (gransOf loc 64) = .ok tags

/-- The old value of a remote atomic may be written behind its parameters in this sc: the sides are free, and no other
request waits for the bank (09 R158). -/
def backFree (s : State) (n loc : Nat) : Prop :=
  loc + 64 ≤ 2 ^ 20 ∧ s.sideFree (2 ^ 48 + n * 2 ^ 20 + (loc + 16)) 8 true false = true ∧
  ∀ p ∈ (s.tile n).bankQ, p.2 ≠ (loc + 16) / 64 % 48

/-! ### Steps beside the bundles (04 R83-R93, 07 R118-R131, 08 R138-R144, 09 R172-R173, 10 R187-R192, 19 R352-R360) -/

/-- Nothing differs but tile n. -/
def onlyTile (n : Nat) (s t : State) : Prop := t = { s with tiles := t.tiles } ∧ ∀ m, m ≠ n → t.tile m = s.tile m
/-- Nothing differs but plot k. -/
def onlyPlot (k : Nat) (s t : State) : Prop :=
  t = { s with plots := t.plots } ∧ ∀ j, j ≠ k → afind t.plots j = afind s.plots j
/-- Every register file is as before. -/
def sameRegs (s t : State) : Prop := ∀ n, (t.tile n).regs = (s.tile n).regs
/-- No packet and no plot of a queue waits to be completed by the end of work. -/
def settled (s : State) : Prop := s.queues = [] ∧ ∀ p ∈ s.plots, p.2.reset = false
/-- 64 bytes that lie in no scratchpad. -/
def offSpad (pa : Nat) : Prop := pa + 64 ≤ 2 ^ 48 ∨ 2 ^ 49 ≤ pa
/-- Boundaries of 85, 95 and 105 degrees that a temperature has passed: its band (04 R90). -/
def bandAt (c : Nat) : Nat := (if 85 < c then 1 else 0) + (if 95 < c then 1 else 0) + (if 105 < c then 1 else 0)
/-- Counts added to a barrier of every member of an instance, each field held at its largest (09 R171). -/
def countedIn (s t : State) (n b arr bytes : Nat) : Prop :=
  (s.members n b).Nodup → ∀ m ∈ s.members n b,
    ((t.tile m).bar b).arrCnt.toNat = Nat.min (((s.tile m).bar b).arrCnt.toNat + arr) 0xFFFF ∧
    ((t.tile m).bar b).byteCnt.toNat = Nat.min (((s.tile m).bar b).byteCnt.toNat + bytes) 0xFFFFFFFF
/-- The next beat of a copy: elements, destination, its places and the bytes it writes (08 R138, R139). -/
def nextBeat (c : Copy) (b : List Byte) (pas : List Nat) : Beat :=
  ⟨c.next, beatLen c.desc c.next, elemDst c.desc c.next, pas, none, (beatBytes c.desc c.rm b).1,
    (beatBytes c.desc c.rm b).2⟩

end Sys2Proof.Claims

open Sys2Proof Sys2Proof.Machine Sys2Proof.Claims

/-- The events of a vault: the precharge point closes its bank, a refresh that ends leaves its bank IDLE, a bound that
runs out puts DREFL at the boundary, a deadline in mp that runs out refreshes the bank and, where the program could
have refreshed it, forces a stop at the next bundle boundary; where the program could not, the guard refreshes it, and
holds a running plot whose row it reopens for 48 mp (DEDUCED, log entry 46; DESIGN CHOICE, log entry 69). A temperature moves the band at
once when it rises and two degrees late when it falls, and the guard counts the deadlines of every bank of a cluster that
stays stopped (04 R84-R93, R98, R101). -/
def Obligations.VaultEventsChangeTheirBank : Prop :=
  ∀ (s : State) (n k : Nat), s.down = false →
    (((s.tile n).vault.bank k).state = 2 → ((s.tile n).vault.bank k).apre = 0 →
      ∃ t, exec (.prechargePoint n k) s = .next t ∧ onlyTile n s t ∧
        (t.tile n).vault.bank k = { (s.tile n).vault.bank k with state := 0, row := 0 } ∧
        (∀ j, j ≠ k → (t.tile n).vault.bank j = (s.tile n).vault.bank j) ∧
        t.tile n = { s.tile n with vault := (t.tile n).vault }) ∧
    (((s.tile n).vault.bank k).state = 3 → ((s.tile n).vault.bank k).refrem = 0 →
      ∃ t, exec (.refreshComplete n k) s = .next t ∧ onlyTile n s t ∧
        (t.tile n).vault.bank k = { (s.tile n).vault.bank k with state := 0 } ∧
        (∀ j, j ≠ k → (t.tile n).vault.bank j = (s.tile n).vault.bank j) ∧
        t.tile n = { s.tile n with vault := (t.tile n).vault }) ∧
    (∀ j r, (s.tile n).vault.expired = j :: r → ∃ t, exec (.drefl n) s = .next t ∧ onlyTile n s t ∧
      (t.tile n).trap.pending = (s.tile n).trap.pending ++ [(4, vaultTrap 0x09 0 0x40 (j / 16) (j % 16) 0 0xF, none)] ∧
      (t.tile n).vault = { (s.tile n).vault with expired := [] } ∧ (t.tile n).regs = (s.tile n).regs ∧
      (t.tile n).seq = (s.tile n).seq) ∧
    (∀ p pl, (s.tile n).plot = some p → afind s.plots p = some pl → s.mpDue n k = true → s.programs n k = true →
      ((s.tile n).vault.bank k).refdue ≠ 0 → ∃ t q, exec (.mpRefreshDeadline n k) s = .next t ∧ afind t.plots p = some q ∧
        afind (t.tile n).vault.refMp k = some s.mp ∧ q.forced.isSome ∧
        (pl.forced = none → q.forced = some (
          if ∀ m ∈ s.tilesOf p pl, (s.tile m).turn = false then pl.scyc else pl.scyc + 1, if pl.overrun = true ∨ s.overrunNow pl = true
          then ⟨.stretch, 0xF1, k / 16, k % 16⟩ else ⟨.therm, 0xF3, k / 16, k % 16⟩)) ∧
        t.mem = s.mem ∧ sameRegs s t ∧ ∀ m, m ≠ n → t.tile m = s.tile m) ∧
    (s.mpDue n k = true → s.programs n k = false → ∃ t, exec (.refreshGuardRefresh n k) s = .next t ∧
      afind (t.tile n).vault.refMp k = some s.mp ∧ (t.tile n).vault.banks = (s.tile n).vault.banks ∧
      t.mem = s.mem ∧ sameRegs s t ∧ (∀ m, m ≠ n → t.tile m = s.tile m) ∧
      (((s.tile n).vault.bank k).state ≠ 1 ∨ (s.tile n).vault.scheduled (k / 16) = false → t.plots = s.plots) ∧
      ∀ p pl, (s.tile n).plot = some p → afind s.plots p = some pl → afind t.plots p = some { pl with
        guardMp := if pl.st = .running ∧ ((s.tile n).vault.bank k).state = 1 ∧ (s.tile n).vault.scheduled (k / 16) = true
          then Nat.max pl.guardMp (s.mp + 48) else pl.guardMp }) ∧
    (∀ cl c, cl < s.model.clusters → c ≤ 115 → s.rings = [] → settled s →
      ∃ t, exec (.bandChange cl c) s = .next t ∧ t.mem = s.mem ∧
        (¬ ((s.cluster cl).hot = true ∧ 110 ≤ c) → t.tiles = s.tiles) ∧
        ((s.cluster cl).hot = true → 110 ≤ c → ∀ m,
          t.tile m = { s.tile m with vault := { (s.tile m).vault with refMp := (t.tile m).vault.refMp } } ∧
          ∀ j < 64, afind (t.tile m).vault.refMp j = if m < s.model.tiles ∧ clusterOf m = cl
            then some ((afind (s.tile m).vault.refMp j).getD s.mp) else afind (s.tile m).vault.refMp j) ∧
        (t.cluster cl).band = (if (s.cluster cl).band < bandAt c then bandAt c
          else Nat.min (s.cluster cl).band (bandAt (c + 2))) ∧
        (t.cluster cl).hot = (if c < 110 then false else (s.cluster cl).hot) ∧
        (t.cluster cl).copies = (s.cluster cl).copies ∧ ∀ x, x ≠ cl → t.cluster x = s.cluster x)

/-- A dynamic access that may be performed, in a cluster with fewer than 256 requests outstanding, is: an LDR puts the 64
bytes of its target into its granule, in the sc in which it reads them or, where its bank is taken, in a later one, an STR
its bytes into every copy of its target, and a remote atomic its new value into its word and the old one, in that sc or
where its bank is taken in a later one, into its parameter granule; no other byte of memory and no register changes (10 R187-R190, 07 R123). A dynamic access that has
performed ends: it counts one arrival and its bytes, 64 or 8, into its barrier, and the flags of an atomic go to
PFLAGS; one that has met a fault counts its arrival and its cause, and an empty fault record of the context takes it
(10 R188, 07 R128, R131, 09 R158, R171). -/
def Obligations.DynamicAccessesArePerformedAndEnd : Prop :=
  (∀ (s : State) (n id : Nat) (d : Dyn), s.down = false → n < 512 → s.findDyn n id = some d → s.dynMay n d = true →
    (∀ b pas, d.kind = .str → d.data = some b → b.length = 64 → s.heldPage (s.ctxOf n) d.va = false →
      s.portFull (s.agentOf n false (some (.dyn n id))) = false →
      s.reach (s.agentOf n false (some (.dyn n id))) d.va .write = .ok pas → (∀ pa ∈ pas, offSpad pa) →
      pas.Pairwise (fun x y => x + 64 ≤ y ∨ y + 64 ≤ x) →
      ∃ t, exec (if s.replicated (s.ctxOf n) d.va then .replicaCommit n id else .sidePortServe n id) s = .next t ∧
        (∀ pa ∈ pas, ∀ (i : Nat) (v : Byte), b[i]? = some v → Memory.get t.mem (pa + i) = v) ∧
        (∀ x, (∀ pa ∈ pas, x < pa ∨ pa + 64 ≤ x) → Memory.get t.mem x = Memory.get s.mem x) ∧
        t.findDyn n id = some { d with served := true, flags := fNone } ∧ sameRegs s t) ∧
    (∀ pa r tags, d.kind = .ldr → d.data = none → s.portFull (s.agentOf n false (some (.dyn n id))) = false →
      s.reach (s.agentOf n false (some (.dyn n id))) d.va .read = .ok (pa :: r) → offSpad pa →
      s.memErr pa 64 = false → takesItsTurn s n d.loc tags →
      ∃ t, exec (.sidePortServe n id) s = .next t ∧
        storedAt s.mem t.mem (2 ^ 48 + n * 2 ^ 20 + d.loc) (Memory.read s.mem pa 64) ∧ (t.tile n).tags = tags ∧
        t.findDyn n id = some { d with served := true, flags := fNone, data := some (Memory.read s.mem pa 64) } ∧
        sameRegs s t) ∧
    (∀ b tags, d.kind = .ldr → d.data = some b → b.length = 64 → takesItsTurn s n d.loc tags →
      ∃ t, exec (.sidePortServe n id) s = .next t ∧ storedAt s.mem t.mem (2 ^ 48 + n * 2 ^ 20 + d.loc) b ∧
        (t.tile n).tags = tags ∧ t.findDyn n id = some { d with served := true, flags := fNone } ∧ sameRegs s t) ∧
    (∀ b, d.kind = .ldr → d.data = some b → d.loc + 64 ≤ 2 ^ 20 →
      s.sideFree (2 ^ 48 + n * 2 ^ 20 + d.loc) 64 true false = false →
      ∃ t, exec (.sidePortServe n id) s = .next t ∧ t.mem = s.mem ∧ sameRegs s t ∧ t.findDyn n id = some d) ∧
    (∀ op w64 pa r tags old q, d.kind = .atom op w64 → d.data = none → s.heldPage (s.ctxOf n) d.va = false →
      s.portFull (s.agentOf n false (some (.dyn n id))) = false →
      s.reach (s.agentOf n false (some (.dyn n id))) d.va .atomic = .ok (pa :: r) → offSpad pa → s.memErr pa (wide w64) = false →
      d.loc + 64 ≤ 2 ^ 20 → s.claim n n .awrite (gransOf (d.loc + 16) 8) = .ok tags →
      old = leNat (Memory.read s.mem pa (wide w64)) →
      q = atomNew op (8 * wide w64) old (d.x.toNat % 2 ^ (8 * wide w64)) (d.cmp.toNat % 2 ^ (8 * wide w64)) →
      ∃ t, exec (.sidePortServe n id) s = .next t ∧ Memory.read t.mem pa (wide w64) = leBytes (wide w64) q.1 ∧
        (t.tile n).tags = tags ∧ sameRegs s t ∧
        (backFree s n d.loc → Memory.read t.mem (2 ^ 48 + n * 2 ^ 20 + (d.loc + 16)) 8 = leBytes 8 old ∧
          (∀ x, (x < pa ∨ pa + wide w64 ≤ x) → (x < 2 ^ 48 + n * 2 ^ 20 + (d.loc + 16) ∨
            2 ^ 48 + n * 2 ^ 20 + (d.loc + 16) + 8 ≤ x) → Memory.get t.mem x = Memory.get s.mem x) ∧
          t.findDyn n id = some { d with served := true, data := some (leBytes 8 old), flags := q.2 }) ∧
        (s.sideFree (2 ^ 48 + n * 2 ^ 20 + (d.loc + 16)) 8 true false = false →
          (∀ x, (x < pa ∨ pa + wide w64 ≤ x) → Memory.get t.mem x = Memory.get s.mem x) ∧
          t.findDyn n id = some { d with data := some (leBytes 8 old), flags := q.2 })) ∧
    (∀ op w64 b, d.kind = .atom op w64 → d.data = some b → b.length = 8 → backFree s n d.loc →
      ∃ t, exec (.sidePortServe n id) s = .next t ∧ storedAt s.mem t.mem (2 ^ 48 + n * 2 ^ 20 + (d.loc + 16)) b ∧
        t.findDyn n id = some { d with served := true } ∧ sameRegs s t)) ∧
  (∀ (s : State) (n id : Nat) (d : Dyn), s.down = false → s.findDyn n id = some d →
    (d.served = true → d.fault = none →
      ∃ t, exec (.dynamicAccessEnd n id) s = .next t ∧ t.mem = s.mem ∧ t.plots = s.plots ∧
        (t.tile n).dyn = (s.tile n).dyn.filter (fun q => q.id != id) ∧
        (t.tile n).regs = { (s.tile n).regs with pflags := (t.tile n).regs.pflags } ∧
        ((d.kind = .ldr ∨ d.kind = .str) → (t.tile n).regs.pflags = (s.tile n).regs.pflags ∧
          countedIn s t n d.bar 1 64) ∧
        (∀ op w64, d.kind = .atom op w64 → (t.tile n).regs.pflags = (s.tile n).regs.pflags ||| d.flags ∧
          countedIn s t n d.bar 1 8)) ∧
    (∀ f pa, d.fault = some f → f.cause ≠ 0 → f.sub.toNat < 128 → d.bar < 64 → pa = s.headerPa (s.ctxOf n) →
      ∃ t, exec (.dynamicAccessEnd n id) s = .next t ∧ sameRegs s t ∧ countedIn s t n d.bar 1 0 ∧
        (t.tile n).dyn = (s.tile n).dyn.filter (fun q => q.id != id) ∧
        (∀ m ∈ s.members n d.bar, ((t.tile m).bar d.bar).err =
          if ((s.tile m).bar d.bar).err = 0 then f.cause else ((s.tile m).bar d.bar).err) ∧
        (∀ x, x < pa ∨ pa + 64 ≤ x → Memory.get t.mem x = Memory.get s.mem x) ∧
        (leNat (Memory.read s.mem pa 64) / 2 ^ 63 % 2 = 0 →
          leNat (Memory.read t.mem pa 64) / 2 ^ 63 % 2 = 1 ∧
          leNat (Memory.read t.mem pa 64) / 2 ^ 48 % 2 ^ 8 = f.cause.toNat ∧
          leNat (Memory.read t.mem pa 64) / 2 ^ 56 % 2 ^ 7 = f.sub.toNat ∧
          leNat (Memory.read t.mem pa 64) / 2 ^ 64 % 2 ^ 57 = d.va.toNat % 2 ^ 57)))

/-- A table walk that ends is cached by every Shuttle that waits for it; a publish toggles FSEL of its range and
counts its arrival; an overlay load makes its page resident and counts 4,096 bytes, or keeps the lines that it has read
where the next of them has to wait; a read of WAITA that returns lets
its tile go on where its compare holds (07 R121, R128, 19 R353, R360). A failed walk is cached too (DEDUCED, log entry
20). -/
def Obligations.WalksPublishesOverlaysAndReadsComplete : Prop :=
  ∀ (s : State), s.down = false →
    (∀ die w, s.walks.find? (fun w => w.die == die) = some w →
      ∃ t, exec (.pageWalkComplete die) s = .next t ∧ w ∉ t.walks ∧ (∀ v ∈ s.walks, v ≠ w → v ∈ t.walks) ∧
        t = { s with walks := t.walks, tlb := t.tlb, ctxs := t.ctxs } ∧
        ∀ cl ∈ w.clusters, t.cached cl w.ctx w.page = some (s.walk w.ctx (BitVec.ofNat 64 (w.page * 2 ^ 19)))) ∧
    (∀ c p i e, s.nextPub c = some p → s.pubTarget c (s.plotOf p.tile) p.va = .ok (i, e) →
      ∃ t, exec (.publishSwap c) s = .next t ∧ t.mem = s.mem ∧ sameRegs s t ∧
        sget 0 (t.ctx c).active i = e ^^^ BitVec.ofNat 256 (2 ^ 134) ∧
        (∀ j, j ≠ i → sget 0 (t.ctx c).active j = sget 0 (s.ctx c).active j) ∧
        (t.ctx c).pubs = (s.ctx c).pubs.erase p ∧ countedIn s t p.tile p.bar 1 0) ∧
    (∀ n o r b u, (s.tile n).seq.ovls = o :: r →
      pageRead n (s.pageVa n o.page) (64 - o.bytes.length / 64) o.bytes s = (b, .ask, u) →
      ∃ t, exec (.ovlLoadComplete n) s = .next t ∧ t.mem = u.mem ∧ sameRegs u t ∧
        (t.tile n).seq.ovls = { o with bytes := b } :: r) ∧
    (∀ n o r b u, (s.tile n).seq.ovls = o :: r →
      pageRead n (s.pageVa n o.page) (64 - o.bytes.length / 64) o.bytes s = (b, .done (), u) →
      ∃ t, exec (.ovlLoadComplete n) s = .next t ∧ t.mem = u.mem ∧ (t.tile n).seq.ovls = r ∧
        sget 0 (t.tile n).seq.ftags o.frame = pageTag (s.imageOf n) o.page ∧
        (∀ i < 1024, sget 0 (t.tile n).seq.istore (1024 * o.frame + i) =
          BitVec.ofNat 32 (leNat ((b.drop (4 * i)).take 4))) ∧
        (t.tile n).regs = (u.tile n).regs ∧ countedIn u t n o.bar 1 4096) ∧
    (∀ n va cmp w64 x a ok u, (s.tile n).seq.wait = .waita va cmp w64 x a → s.waitaMay n = true →
      s.waitRead n va cmp w64 x = (.done ok, u) →
      ∃ t, exec (.waitaReadReturn n) s = .next t ∧ t.mem = u.mem ∧
        (t.tile n).seq.wait = (if ok then .none else (u.tile n).seq.wait) ∧ (t.tile n).polled = true ∧
        (t.tile n).regs = (u.tile n).regs ∧ ∀ m, m ≠ n → t.tile m = u.tile m)

/-- The one copy of a Shuttle that may go on starts its next beat, whose bytes are its source's, converted as its
descriptor says, and whose destination is translated then; a beat that completes writes those places, is taken off and
its bytes are counted; a copy that is over leaves the queue
with its arrival (08 R138-R141). -/
def Obligations.ShuttleBeatsStartAndComplete : Prop :=
  ∀ (s : State) (cl : Nat) (c : Copy), s.down = false → settled s → s.rings = [] →
    (∀ b u pas, (s.cluster cl).copies = [c] → s.beatMay cl c = true →
      s.vaRead (s.copyAgent cl c c.next false false) (elemSrc c.desc c.next)
        (beatLen c.desc c.next * descSsize c.desc) = (.done b, u) →
      s.heldPage c.ctx (elemDst c.desc c.next) = false →
      s.reach (s.copyAgent cl c c.next false false) (elemDst c.desc c.next) .write = .ok pas →
      ∃ t, exec (.shuttleBeatIssue cl) s = .next t ∧ t.mem = u.mem ∧ t.tiles = u.tiles ∧
        (t.cluster cl).copies =
          [{ c with next := c.next + beatLen c.desc c.next, beats := c.beats ++ [nextBeat c b pas] }] ∧
        (t.cluster cl).served = c.ctx) ∧
    (∀ x u n, (s.cluster cl).copies = [c] → c.beats = [x] → c.tile = some n → x.peer = none →
      s.placeWrite (s.copyAgent cl c x.first true false) x.pas x.bytes .awrite = (.done (), u) →
      ∃ t, exec (.shuttleBeatComplete cl) s = .next t ∧ t.mem = u.mem ∧ countedIn u t n c.bar 0 x.bytes.length ∧
        (t.cluster cl).copies =
          [{ c with beats := [], written := c.written + x.bytes.length, flags := c.flags ||| x.flags }]) ∧
    (∀ n, (s.cluster cl).copies.find? (fun c => c.over && c.tile.isSome) = some c → c.tile = some n →
      ∃ t, exec (.shuttleBeatComplete cl) s = .next t ∧ t.mem = s.mem ∧ sameRegs s t ∧
        (t.cluster cl).copies = (s.cluster cl).copies.filter (fun q => q.age != c.age) ∧
        countedIn s t n c.bar 1
          (if c.cancelled = true ∧ c.faulted = false then descBytes c.desc - c.written else 0))

/-- A barrier instance whose expectations are met completes its phase in every member, its members see it from the
next sc on and the claims of its windows clear, a tile that waits for it goes on with the phase's flags, or with its
fault at the boundary, and a value driven by a neighbour is present in its sc (09 R167, R172-R174, 19 R352, 11 R205).
An instance that spans modules is seen 641 sc later, and a value of the peer comes in on lane 0 of a link whose stream
lane is usable, at the link's edge tile of a plot that spans it, 640 sc after it was driven (01 R19, 11 R205, 30 R486). A
member sees the completions of an instance one after another, each in its sc. -/
def Obligations.BarriersCompleteAndValuesArrive : Prop :=
  ∀ (s : State) (n b : Nat), s.down = false →
    (((s.tile n).bar b).armed = true → ((s.tile n).bar b).tested = false →
      (((s.tile n).bar b).arrExp ≠ 0 ∨ ((s.tile n).bar b).byteExp ≠ 0) →
      ((s.tile n).bar b).arrExp.toNat ≤ ((s.tile n).bar b).arrCnt.toNat →
      (((s.tile n).bar b).byteExp.toNat ≤ ((s.tile n).bar b).byteCnt.toNat ∨ ((s.tile n).bar b).err ≠ 0) →
      s.scOver n = true → (s.members n b).Nodup →
      ∃ t, exec (.barrierPhaseComplete n b) s = .next t ∧ t = { s with tiles := t.tiles } ∧ sameRegs s t ∧
        (∀ m, m ∉ s.members n b → t.tile m = s.tile m) ∧
        ∀ m ∈ s.members n b, (t.tile m).bar b = { (s.tile m).bar b with
          arrCnt := ((s.tile m).bar b).arrCnt - ((s.tile m).bar b).arrExp
          byteCnt := if ((s.tile m).bar b).err = 0 then ((s.tile m).bar b).byteCnt - ((s.tile m).bar b).byteExp else 0
          lerr := ((s.tile m).bar b).err, lesub := ((s.tile m).bar b).esub, lflags := ((s.tile m).bar b).flags
          err := 0, esub := 0, flags := 0, phase := !((s.tile m).bar b).phase
          seenAt := ((s.tile m).bar b).seenAt ++ [s.now n + s.seenLag n b]
          tested := true }) ∧
    (∀ pl, s.plotOf n = some pl → s.seenLag n b = if b ≠ 48 ∧ pl.st ≠ .paused ∧
      Inst.spans pl (instOf pl (s.tile n).lx (s.tile n).ly ((s.tile n).bar b)) = true then 641 else 1) ∧
    ((∃ u ∈ ((s.tile n).bar b).seenAt, u ≤ s.now n) → (s.members n b).Nodup →
      ∃ t, exec (.barrierCompletionSeen n b) s = .next t ∧ t = { s with tiles := t.tiles } ∧ sameRegs s t ∧
        (∀ m, m ∉ s.members n b → t.tile m = s.tile m) ∧
        ∀ m ∈ s.members n b,
          (∀ u r, ((s.tile m).bar b).seenAt = u :: r → u ≤ s.now n →
            (t.tile m).bar b = { (s.tile m).bar b with seen := !((s.tile m).bar b).seen, seenAt := r }) ∧
          ((∀ u ∈ ((s.tile m).bar b).seenAt, s.now n < u) → (t.tile m).bar b = (s.tile m).bar b) ∧
          ∀ g, sget 0 (t.tile m).tags g =
            if (∃ w ∈ (s.tile m).wins, w.shared = true ∧ w.bar = b ∧ w.base ≤ 64 * g ∧ 64 * g < w.base + w.size)
            then 0 else sget 0 (s.tile m).tags g) ∧
    (∀ ph a, (s.tile n).seq.wait = .barw b ph a → (s.tile n).turn = false → ((s.tile n).bar b).seen ≠ ph →
      ∃ t, exec (.barwResume n) s = .next t ∧ onlyTile n s t ∧ (t.tile n).seq = { (s.tile n).seq with wait := .none } ∧
        (t.tile n).regs = { (s.tile n).regs with
          flags := (s.tile n).regs.flags ||| ((s.tile n).bar b).lflags ||| (s.tile n).regs.pflags, pflags := 0 } ∧
        (((s.tile n).bar b).lerr = 0 → (t.tile n).trap = (s.tile n).trap) ∧
        (((s.tile n).bar b).lerr ≠ 0 → ((s.tile n).bar b).lesub ≠ 0 → b < 48 →
          (t.tile n).trap.pending = (s.tile n).trap.pending ++
            [(5, trapAt ((s.tile n).bar b).lerr a ((s.tile n).bar b).lesub.toNat b, some a)])) ∧
    (∀ dir (lane : BitVec 4) data stamp eos f, f ∈ (s.tile n).inbox →
      f = ⟨s.now n, dir, lane.toNat, data, stamp, eos, false⟩ →
      ∃ t, exec (.streamValueArrives n dir lane data stamp eos) s = .next t ∧ onlyTile n s t ∧
        { f with present := true } ∈ (t.tile n).inbox ∧ (t.tile n).regs = (s.tile n).regs ∧
        (t.tile n).seq = (s.tile n).seq) ∧
    (∀ (dir : Dir) (lane : BitVec 4) data stamp eos, (∀ f ∈ (s.tile n).inbox, f.due ≠ s.now n ∨ f.dir ≠ dir ∨
        f.lane ≠ lane.toNat) →
      (∀ l pl, s.model.edgeLink n (opposite dir) = some l → lane = 0 → (s.link l).stream = true →
        s.plotOf n = some pl → pl.st = .running → 640 ≤ pl.scyc →
        (65535 ≤ pl.scyc - 640 ∨ stamp.toNat ≤ pl.scyc - 640) → (if dir = .east ∨ dir = .west then 32 < pl.w else 16 < pl.h) →
        ∃ t, exec (.streamValueArrives n dir lane data stamp eos) s = .next t ∧ onlyTile n s t ∧
          (t.tile n).inbox = (s.tile n).inbox ++ [⟨s.now n, dir, 0, data, stamp, eos, true⟩] ∧
          (t.tile n).regs = (s.tile n).regs) ∧
      (s.model.edgeLink n (opposite dir) = none ∨ lane ≠ 0 ∨ s.plotOf n = none ∨
          (∃ pl, s.plotOf n = some pl ∧ (pl.scyc < 640 ∨ pl.scyc - 640 < stamp.toNat)) →
        ∃ t, exec (.streamValueArrives n dir lane data stamp eos) s = .next t ∧ onlyTile n s t ∧
          t.tile n = s.tile n))

namespace Sys2Proof.Claims
open Sys2Proof.Machine

/-! ### Plots (19 R354-R356, 23 R398-R405, 27 R430-R453, 02 R43) -/

/-- A tile that takes a trap at its next boundary in user mode does so with nothing under way and no bundle passed over. -/
def calm (t : Tile) : Prop := t.trap.sup = false ∧ t.pend = [] ∧ t.seq.skip = false
/-- A tile has taken a trap: its code and value stand in the trap registers and its monitor is to run; its register
files are as before (27 R434). -/
def inMonitor (t u : Tile) (code : BitVec 8) (v : BitVec 64) : Prop :=
  u.trap.tcause.extractLsb' 0 8 = code ∧ u.trap.tval = v ∧ u.trap.sup = true ∧ u.seq.wait = .none ∧
  u.seq.pc = t.trap.evec.toNat % 2 ^ 24 ∧ u.regs = t.regs
/-- The mp at which a paused plot that is released runs on: at once, or 48 mp later where the guard reopens a row (04
R98). -/
def guardOver (s : State) (k : Nat) (pl : Plot) : Nat :=
  s.mp + if ∃ n ∈ s.tilesOf k pl, ∃ p ∈ (s.tile n).vault.banks,
    (s.tile n).vault.scheduled (p.1 / 16) = true ∧ p.2.state = 1 then 48 else 0
/-- The tile of a rank of a plot. -/
def tileOfRank (pl : Plot) (r : Nat) : Nat := pl.tileAt (r % pl.w) (r / pl.w)

end Sys2Proof.Claims

open Sys2Proof Sys2Proof.Machine Sys2Proof.Claims

/-- A paused plot whose hold conditions have all held runs again, its tiles waiting no more, after the guard's refreshes
and, where a row is open, at least 48 mp later (04 R98; the mp of the refreshes is DESIGN CHOICE, log entry 69); a hold
that times out takes HOLDTO in its tile (19 R356). A plot that has run on beyond HOLDMAX becomes overdue; a stop asked for
waits for the next hold, but for a plot that is overdue it is forced at the next boundary; a plot stop that reaches a tile puts
it in its monitor with PSTOP (23 R405, 24 R417, 27 R439). The place of HOLDTO is DEDUCED (log entry 34). -/
def Obligations.HoldsRequestsAndPlotStops : Prop :=
  (∀ (s : State) (k : Nat) (pl : Plot), s.down = false → afind s.plots k = some pl → pl.st = .paused →
    (s.retainedPlot pl = false → s.allHeld k pl = true →
      (∀ n ∈ s.pausers k pl, ∃ i c a, (s.tile n).seq.wait = .hold i c a) →
      ∃ t, exec (.holdRelease k) s = .next t ∧
        t = { s with tiles := t.tiles, plots := t.plots, ctxs := t.ctxs } ∧
        afind t.plots k = some { pl with
          st := .running, holdMp := s.mp, overdue := false, overrun := false
          guardMp := guardOver s k pl } ∧
        (∀ n, (t.tile n).vault = { (s.tile n).vault with refMp := (t.tile n).vault.refMp }) ∧
        (∀ n ∈ s.tilesOf k pl, ∀ b ∈ s.guardBanks pl (guardOver s k pl) n,
          afind (t.tile n).vault.refMp b.1 = some s.mp ∨ afind (t.tile n).vault.refMp b.1 = some (guardOver s k pl)) ∧
        (∀ n ∈ s.tilesOf k pl, ((s.tile n).vault.banks.map (·.1)).Nodup → ∀ b ∈ s.guardBanks pl (guardOver s k pl) n,
          afind (t.tile n).vault.refMp b.1 = some (if b.2.state = 1 then s.mp else guardOver s k pl)) ∧
        (∀ n ∈ s.pausers k pl, (t.tile n).seq = { (s.tile n).seq with wait := .none } ∧
          ∀ i c a, (s.tile n).seq.wait = .hold i c a → (t.tile n).regs =
            match c with
            | .bar b _ => { (s.tile n).regs with
                flags := (s.tile n).regs.flags ||| ((s.tile n).bar b).lflags ||| (s.tile n).regs.pflags, pflags := 0 }
            | _ => (s.tile n).regs) ∧
        ∀ n, n ∉ s.pausers k pl → t.tile n = { s.tile n with vault := (t.tile n).vault }) ∧
    (∀ n i c a, (s.tile n).plot = some k → calm (s.tile n) → (s.tile n).seq.wait = .hold i c a →
      (holdEntry s n i).timeout ≠ 0 → 4000 * (holdEntry s n i).timeout ≤ s.mp - pl.pauseMp →
      pl.held.contains ((s.tile n).ly * pl.w + (s.tile n).lx) = false →
      ∃ t, exec (.holdto n) s = .next t ∧ (s.rings = [] → t.mem = s.mem) ∧
        inMonitor (s.tile n) (t.tile n) 0x1C (trapAt 0x1C a 0xC0 i).tval ∧
        (t.tile n).trap.tscyc = BitVec.ofNat 64 (pl.scyc + 1) ∧ ∃ q, afind t.plots k = some q ∧ q.st = .running)) ∧
  (∀ (s : State) (k : Nat) (pl : Plot), s.down = false → afind s.plots k = some pl → pl.st = .running →
    (pl.tt.holdmax * 4000 < s.mp - pl.holdMp → ∃ t, exec (.plotOverdue k) s = .next t ∧ onlyPlot k s t ∧
      afind t.plots k = some { pl with overdue := true }) ∧
    (s.mp - pl.holdMp ≤ pl.tt.holdmax * 4000 → exec (.plotOverdue k) s = .next s) ∧
    (∀ sub : BitVec 8, pl.taken = none →
      (pl.overdue = false → ∃ t, exec (.preemptRequest k sub) s = .next t ∧ onlyPlot k s t ∧
        afind t.plots k = some { pl with stops := pl.stops ++ [⟨.preempt, sub.toNat, 0, 0⟩] }) ∧
      (pl.overdue = true → pl.forced = none → ∃ t, exec (.preemptRequest k sub) s = .next t ∧ onlyPlot k s t ∧
        afind t.plots k = some { pl with forced := some (
          if ∀ m ∈ s.tilesOf k pl, (s.tile m).turn = false then pl.scyc else pl.scyc + 1, ⟨.preempt, sub.toNat, 0, 0⟩) })) ∧
    (∀ n v, (s.tile n).turn = false → (s.tile n).trap.stopAt ≠ none → calm (s.tile n) → firstOf (s.boundary n) = some (7, ⟨0x16, v, false⟩, none) →
      ∃ t, exec (.plotStopArrival n) s = .next t ∧ t.mem = s.mem ∧ inMonitor (s.tile n) (t.tile n) 0x16 v ∧
        t.plots = s.plots ∧ ∀ m, m ≠ n → t.tile m = s.tile m))

/-- A timetable is armed on a free rectangle with the first variant that suits: every tile of its ranks that is free
is set for a fresh run at ENTRY; its start pulse sets it running; a pre-empted plot of one tile is armed with the
registers and the sequencer of its image, as its slot of the save area holds it now, PFLAGS merged (23 R398, R402, 11
R200, 27 R442, R446, R448). A new launch is armed where no pre-empted timetable of its level waits (24 R416). A forced stop of a
plot of one tile at its boundary saves the tile's image with its scratchpad and puts the tile in its monitor with the
stop's code (27 R449, R450). The form of an image is the model’s (DESIGN CHOICE, log entry 39). -/
def Obligations.PlotsAreArmedStoppedAndResumed : Prop :=
  (∀ (s : State) (k : Nat) (pl : Plot), s.down = false → s.rings = [] → afind s.plots k = some pl →
    (∀ x y v, pl.st = .placing → pl.resumes = false → s.rectFree pl x y = true → s.preemptedAt pl.level = false →
      s.choose { pl with x0 := x, y0 := y } = some v →
      ∃ t p, exec (.plotArming k x y) s = .next t ∧ afind t.plots k = some p ∧ p.st = .armed ∧ p.x0 = x ∧ p.y0 = y ∧
        p.variant = v ∧ p.scyc = 0 ∧ p.tt = pl.tt ∧
        ∀ r ∈ pl.own, ∀ n, n = tileOfRank { pl with x0 := x, y0 := y } r → (s.tile n).plot = none →
          (t.tile n).plot = some k ∧ (t.tile n).lx = r % pl.w ∧ (t.tile n).ly = r / pl.w ∧
          (t.tile n).seq.pc = pl.tt.entry ∧ (t.tile n).seq.loops = [] ∧ (t.tile n).trap.sup = false ∧
          (t.tile n).regs = { Regs.reset with
            rngKey0 := pl.tt.rngKey0, rngKey1 := pl.tt.rngKey1, rngCtr := (pl.tt.rngCtr >>> 2) <<< 2 } ∧
          (t.tile n).wins = pl.tt.wins) ∧
    (pl.st = .armed → pl.resumes = false → settled s → (∀ r ∈ pl.own, (s.tile (tileOfRank pl r)).plot = some k) →
      ∃ t, exec (.startPulse k) s = .next t ∧
        t = { s with tiles := t.tiles, plots := t.plots, ctxs := t.ctxs, parts := t.parts } ∧ sameRegs s t ∧
        (∀ n, t.tile n = { s.tile n with vault := { (s.tile n).vault with refMp := (t.tile n).vault.refMp } }) ∧
        afind t.plots k = some { pl with
          st := .running, scMp := s.mp, pulMp := s.mp, got := 0, came := [], holdMp := s.mp, pauseMp := s.mp
          overrun := false, overdue := false, held := [], scEnergy := (s.ctx pl.ctx).energy, taken := none
          resumes := false, saved := [] }) ∧
    (∀ x y n i q, pl.st = .preempted → pl.w = 1 → pl.h = 1 → pl.saved = [(0, i)] → q = s.restored pl i →
      s.rectFree pl x y = true →
      s.resumeVariant { pl with x0 := x, y0 := y } = some pl.variant → n = tileIdx x y → (s.tile n).plot = none →
      ∃ t p, exec (.plotResume k x y) s = .next t ∧ afind t.plots k = some p ∧ p.st = .armed ∧ p.resumes = true ∧
        p.x0 = x ∧ p.y0 = y ∧ p.variant = pl.variant ∧ (t.tile n).plot = some k ∧
        (afind pl.slots i.place = none → q = i) ∧
        (t.tile n).seq = { q.tile.seq with mstore := (s.tile n).seq.mstore } ∧
        (t.tile n).regs = { q.tile.regs with
          ss := (s.tile n).regs.ss, flags := q.tile.regs.flags ||| q.tile.regs.pflags, pflags := 0 })) ∧
  (∀ (s : State) (k n f : Nat) (pl : Plot) (st : Stop), s.down = false → s.rings = [] →
    afind s.plots k = some pl → pl.st = .running → pl.w = 1 → pl.h = 1 → pl.own = [0] → pl.forced = some (f, st) → f ≤ pl.scyc →
    n = tileOfRank pl 0 → (s.tile n).plot = some k → (s.tile n).turn = false → calm (s.tile n) →
    (s.tile n).seq.ended = false → (s.tile n).dyn = [] → s.copiesOf n = [] → s.boundary n = [] →
    (s.ctx pl.ctx).migration = none → (∀ q ∈ s.queues, q.2.graphs = []) →
    ∃ t p, exec (.forcedStop k) s = .next t ∧ afind t.plots k = some p ∧
      p.taken = some (st.kind.code, pl.scyc, true) ∧ p.forced = none ∧ p.ended = pl.ended ∧
      inMonitor (s.tile n) (t.tile n) st.kind.code (stopVal st.sub st.st st.bk true ((s.tile n).holdIdx.getD 0)) ∧
      ∃ q, p.saved = pl.saved ++ [((s.tile n).ly + (s.tile n).lx, q)] ∧ q.place = n ∧
        q.tile.regs = (s.tile n).regs ∧ q.tile.seq = (s.tile n).seq ∧
        q.spad = (s.mem.filter (fun c => 2 ^ 48 + n * 2 ^ 20 ≤ c.1 && c.1 < 2 ^ 48 + n * 2 ^ 20 + 0xC0000)).map
          (fun c => (c.1 - (2 ^ 48 + n * 2 ^ 20), c.2)))

/-- A tile that has ended with no work left is freed with its registers as they are, the last one ending its plot; a
cluster all of whose plots are paused goes into retention and comes out of it, its tiles taking RLOST where the parity
fails; the state of a tile is kept as it is freed, with its scratchpad where its plot has must-save items (02 R43, 27
R440, R453, 28 R471). That a freed tile keeps its registers is DEDUCED (log entry 14). -/
def Obligations.TilesAreFreedAndRetentionKeepsThem : Prop :=
  ∀ (s : State), s.down = false → s.rings = [] → settled s →
    (∀ n k pl, s.freeable n = true → (s.tile n).plot = some k → afind s.plots k = some pl →
      (s.tile n).trap.first = none → (∀ p ∈ s.plots, p.2.st ≠ .armed) → n ∈ pl.tileList →
      ∃ t, exec (.tileFreed n) s = .next t ∧ (t.tile n).plot = none ∧ sameRegs s t ∧
        (∀ m, m ≠ n → t.tile m = s.tile m) ∧
        ((∃ m ∈ pl.tileList, m ≠ n ∧ (s.tile m).plot = some k) → ∃ p, afind t.plots k = some p ∧
          p = { pl with freed := p.freed } ∧ ∃ q, afind p.freed ((s.tile n).ly * pl.w + (s.tile n).lx) = some q ∧
            q.tile = s.tile n ∧ q.place = n ∧ (pl.charged = false → q.spad = []) ∧
            (pl.charged = true →
              q.spad = (s.mem.filter (fun c => 2 ^ 48 + n * 2 ^ 20 ≤ c.1 && c.1 < 2 ^ 48 + n * 2 ^ 20 + 0xC0000)).map
                (fun c => (c.1 - (2 ^ 48 + n * 2 ^ 20), c.2)))) ∧
        ((∀ m ∈ pl.tileList, m ≠ n → (s.tile m).plot ≠ some k) →
          ∃ p, afind t.plots k = some p ∧ p.st = pl.fate.1 ∧ (pl.ended = none → pl.taken = none → p.st = .done))) ∧
    (∀ cl, s.plotsOn cl ≠ [] → (∀ p ∈ s.plotsOn cl, p.2.st = .paused) →
      ∃ t, exec (.retentionEntry cl) s = .next t ∧ t = { s with clusters := t.clusters } ∧
        t.cluster cl = { s.cluster cl with retained := true }) ∧
    (∀ cl, (s.cluster cl).retained = true → (∀ p ∈ s.plots, p.2.stops = []) →
      ∃ t, exec (.retentionExit cl true) s = .next t ∧ t = { s with clusters := t.clusters } ∧
        t.cluster cl = { s.cluster cl with retained := false }) ∧
    (∀ cl k pl n, (s.cluster cl).retained = true → s.plots = [(k, pl)] → pl.st = .paused → cl ∈ pl.clusters →
      n ∈ s.tilesOf k pl → (∀ m ∈ s.tilesOf k pl, calm (s.tile m)) → (s.tile n).seq.ended = false →
      ∃ t, exec (.retentionExit cl false) s = .next t ∧ (t.cluster cl).retained = false ∧
        (t.tile n).trap.tcause.extractLsb' 0 8 = 0x1B ∧ (t.tile n).trap.sup = true ∧
        (t.tile n).regs = (s.tile n).regs)

namespace Sys2Proof.Claims
open Sys2Proof.Machine

/-! ### Queues (24 R408-R420) -/

/-- Nothing differs but queue q. -/
def onlyQueue (q : Nat) (s t : State) : Prop :=
  t = { s with queues := t.queues } ∧ ∀ j, j ≠ q → t.queue j = s.queue j
/-- A packet is the next of its queue, and its queue is the one that is served next; no selvage ring is set up, and no
write of the Loom for its context is held. -/
def mayStart (s : State) (p : Pkt) (i : Packet) : Prop :=
  (s.queue p.q).next = some i ∧ s.nextQueue = some p.q ∧ s.rings = [] ∧ (s.ctx (s.queue p.q).ctx).late = []
/-- The address of the reset record of a queue (24 R408). -/
def resetRec (s : State) (q : Nat) : BitVec 64 := BitVec.ofNat 64 ((s.queue q).fld 320 64)
/-- The page of the reset record of a queue takes writes: it is not under migration. -/
def openRec (s : State) (q : Nat) : Prop := s.heldPage (s.queue q).ctx (resetRec s q) = false
/-- Reads of the Loom may have been made, which leave memory and every register as they are: they charge the context,
correct errors that a read corrects and use up free values (09 R152, 28 R466). -/
def onlyRead (s t : State) : Prop :=
  t.mem = s.mem ∧ sameRegs s t ∧ (∀ c, t.ctx c = { s.ctx c with energy := (t.ctx c).energy }) ∧
  (s.soft = [] → ∀ n, t.tile n = s.tile n)
/-- The queue of a packet that has started (24 R412, R416). -/
def startedQueue (s : State) (p : Pkt) : Queue :=
  { s.queue p.q with
    next := none, level := (s.queue p.q).fld 248 3, readyMp := s.mp, count := (s.queue p.q).count + 1 }
/-- The job of a packet that has started, with the energy of its context after the reads of the start. -/
def jobOf (s t : State) (p : Pkt) (rec : BitVec 64) (kind : JobKind) : Job :=
  ⟨(s.queue p.q).count + 1, p.seq, p.irq, rec, kind, s.mp, (t.ctx (s.queue p.q).ctx).energy⟩
/-- A packet that asks for an interrupt counts one request, and sends the queue's vector once COUNTTH is reached
(24 R419). -/
def requested (irq : Bool) (s t : State) (k k' : Queue) : Prop :=
  (irq = false → t.msix = s.msix ∧ k' = k) ∧
  (irq = true → k' = { k with irqs := k'.irqs, irqMp := k'.irqMp } ∧
    (k.fld 272 8 ≤ k.irqs + 1 → k'.irqs = 0 ∧ t.msix = k.fld 260 12 :: s.msix) ∧
    (k.irqs + 1 < k.fld 272 8 → k'.irqs = k.irqs + 1 ∧ t.msix = s.msix))
/-- The turns of the levels once a packet of a queue has started: its queue is the one served last at its level (24
R416). -/
def turned (s : State) (p : Pkt) : List (Nat × Nat) := aset s.turnQ (s.queue p.q).level p.q
/-- A packet without a completion record that completes as it starts: its queue is k but for the interrupt request, and
nothing else of the module changes but memory and what a read of the Loom changes. -/
def ranAtOnce (s t : State) (p : Pkt) (k : Queue) : Prop :=
  t = { s with queues := t.queues, turnQ := turned s p, msix := t.msix, mem := t.mem, errs := t.errs, soft := t.soft,
               ctxs := t.ctxs, tiles := t.tiles, freeCtr := t.freeCtr } ∧
  (∀ j, j ≠ p.q → t.queue j = s.queue j) ∧ (∀ c, t.ctx c = { s.ctx c with energy := (t.ctx c).energy }) ∧
  sameRegs s t ∧ (s.soft = [] → ∀ n, t.tile n = s.tile n) ∧
  requested p.irq s t { k with jobs := k.jobs.filter (fun x => x.id != k.count) } (t.queue p.q)

end Sys2Proof.Claims

open Sys2Proof Sys2Proof.Machine Sys2Proof.Claims

/-- FENCEK, MARKK, CALLIB, RETIB and SIGNAL that start complete at once: MARKK writes a record of its tag between those of
its start and end, CALLIB enters its buffer, RETIB leaves the innermost one, SIGNAL writes or adds to its word; CALLIB at
depth four and RETIB at depth none stop the queue (24 R411, R413, R415, 29 R477, R478). An interrupt request stays behind
writes of the Loom that a page under migration holds, and a SIGNAL waits for them (07 R127, 24 R419). WAIT, LAUNCH, COPY
and GRAPH that start leave their work with the queue: the compare that holds it, a timetable that is placed, a copy on the
Loom's channel, a graph with its nodes; a LAUNCH that is refused starts no plot and leaves an entry of its status in the
manifest log, which is DEDUCED (log entry 42); a GRAPH that cannot be read stops its queue (24 R411, R415, R418, 23 R400,
30 R493). Ring addresses are physical (DESIGN CHOICE, log entry 27). -/
def Obligations.PacketsStartTheirWork : Prop :=
  (∀ (s : State) (p : Pkt) (va val : BitVec 64) (len tag : BitVec 32) (w64 add : Bool), s.down = false →
    (mayStart s p (.fencek p) → ∃ t, exec (.fencek p) s = .next t ∧ ranAtOnce s t p (startedQueue s p) ∧ t.mem = s.mem ∧
      t.ctxs = s.ctxs ∧ t.tiles = s.tiles) ∧
    ((s.queue p.q).next = some (.fencek p) → s.nextQueue = some p.q → s.rings = [] →
      (s.ctx (s.queue p.q).ctx).late ≠ [] → ∃ t, exec (.fencek p) s = .next t ∧ t.msix = s.msix ∧ t.mem = s.mem ∧
        (t.ctx (s.queue p.q).ctx).late =
          (s.ctx (s.queue p.q).ctx).late ++ (if p.irq = true then [.irq p.q false] else [])) ∧
    (mayStart s p (.markk p tag) → ∃ t, exec (.markk p tag) s = .next t ∧ ranAtOnce s t p (startedQueue s p) ∧
      t.mem = s.mem ∧ t.ctxs = s.ctxs ∧ t.tiles = s.tiles) ∧
    (∀ c, c = (s.queue p.q).ctx → (s.queue p.q).next = some (.markk p tag) → s.nextQueue = some p.q →
      ∃ t, exec (.markk p tag) s = .next t ∧ (t.queue p.q).next = none ∧ t.mem =
        (((s.record 0x31 c 0 p.q p.seq).record 0x51 c 0 tag.toNat 0).record 0x32 c 0 p.q (p.seq + 2 ^ 32)).mem) ∧
    (∀ c r tl hd, c = (s.queue p.q).ctx → c ≠ 0 → (s.queue p.q).next = some (.markk p tag) → s.nextQueue = some p.q →
      s.rings = [(s.partOf c, r)] → tl = leNat (Memory.read s.mem r.ctl 8) → tl + 3 < 2 ^ 64 →
      hd = leNat (Memory.read s.mem (r.ctl + 8) 8) → (tl + 2 ^ 64 - hd) % 2 ^ 64 + 2 < 2 ^ r.size →
      (r.ctl + 16 ≤ r.base ∨ r.base + 32 * 2 ^ r.size ≤ r.ctl) →
      ∃ t, exec (.markk p tag) s = .next t ∧ Memory.read t.mem r.ctl 8 = leBytes 8 (tl + 3) ∧
        Memory.read t.mem (r.base + 32 * ((tl + 1) % 2 ^ r.size)) 32 = leBytes 32 (s.ns % 2 ^ 64 * 2 ^ 192 +
          0x51 * 2 ^ 184 + c * 2 ^ 178 + s.partOf c * 2 ^ 175 + tag.toNat * 2 ^ 128)) ∧
    (mayStart s p (.callib p va len) → va.toNat % 64 = 0 → (s.queue p.q).bufs.length < 4 →
      ∃ t, exec (.callib p va len) s = .next t ∧ t.mem = s.mem ∧ t.ctxs = s.ctxs ∧ ranAtOnce s t p
        { startedQueue s p with bufs := (va, 0, len.toNat) :: (s.queue p.q).bufs }) ∧
    (mayStart s p (.callib p va len) → 4 ≤ (s.queue p.q).bufs.length →
      ∃ t, exec (.callib p va len) s = .next t ∧ (t.queue p.q).stopped = true ∧
        (openRec s p.q → t.msix = (s.queue p.q).fld 260 12 :: s.msix) ∧
        (¬ openRec s p.q → resetRec s p.q ≠ 0 → t.msix = s.msix ∧
          ∃ b, (t.ctx (s.queue p.q).ctx).late = [.write (resetRec s p.q) b, .irq p.q true]) ∧
        (t.queue p.q).bufs = (s.queue p.q).bufs) ∧
    (mayStart s p (.retib p) → (s.queue p.q).bufs ≠ [] →
      ∃ t, exec (.retib p) s = .next t ∧ t.mem = s.mem ∧ t.ctxs = s.ctxs ∧
        ranAtOnce s t p { startedQueue s p with bufs := (s.queue p.q).bufs.tail }) ∧
    (mayStart s p (.retib p) → (s.queue p.q).bufs = [] →
      ∃ t, exec (.retib p) s = .next t ∧ (t.queue p.q).stopped = true ∧
        (openRec s p.q → t.msix = (s.queue p.q).fld 260 12 :: s.msix)) ∧
    ((s.queue p.q).next = some (.signal p va val w64 add) →
      s.heldPage (s.queue p.q).ctx va = true ∨ (s.ctx (s.queue p.q).ctx).late ≠ [] →
      exec (.signal p va val w64 add) s = .next s) ∧
    (∀ pa, mayStart s p (.signal p va val w64 add) → va.toNat % wide w64 = 0 → offSpad pa →
      s.heldPage (s.queue p.q).ctx va = false →
      s.reach (loomAgent (s.queue p.q).ctx true) va .write = .ok [pa] →
      ∃ t, exec (.signal p va val w64 add) s = .next t ∧ ranAtOnce s t p (startedQueue s p) ∧
        storedAt s.mem t.mem pa (leBytes (wide w64)
          ((if add then leNat (Memory.read s.mem pa (wide w64)) else 0) + val.toNat)))) ∧
  (∀ (s : State) (p : Pkt) (va val rec : BitVec 64) (w64 : Bool) (cmp : Cmp) (timeout : BitVec 32)
    (cap count : BitVec 16) (c : Nat), s.down = false → c = (s.queue p.q).ctx →
    (mayStart s p (.wait p va val w64 cmp timeout) → va.toNat % wide w64 = 0 →
      ∃ t, exec (.wait p va val w64 cmp timeout) s = .next t ∧
        t = { s with queues := t.queues, turnQ := turned s p } ∧ (∀ j, j ≠ p.q → t.queue j = s.queue j) ∧
        t.queue p.q = { startedQueue s p with
          jobs := (s.queue p.q).jobs ++ [jobOf s s p 0 (.wait va val w64 cmp timeout.toNat)] }) ∧
    (∀ tt, mayStart s p (.launch p va rec) → s.admitTt c va = .ok tt →
      ∃ t pl, exec (.launch p va rec) s = .next t ∧ onlyRead s t ∧ t.plotNo = s.plotNo + 1 ∧
        afind t.plots s.plotNo = some pl ∧ pl.tt = tt ∧ pl.st = .placing ∧ pl.ctx = c ∧ pl.q = p.q ∧
        (∀ j, j ≠ s.plotNo → afind t.plots j = afind s.plots j) ∧
        t.queue p.q = { startedQueue s p with jobs := (s.queue p.q).jobs ++ [jobOf s t p rec (.launch s.plotNo)] }) ∧
    (∀ e, mayStart s p (.launch p va rec) → s.admitTt c va = .error e →
      ∃ t, exec (.launch p va rec) s = .next t ∧ t.plots = s.plots ∧ (t.queue p.q).next = none ∧
        (t.queue p.q).count = (s.queue p.q).count + 1 ∧ ∃ h, t.manifest = s.manifest ++ [h] ∧ h.length = 256 ∧
          (h.drop 176).take 4 = leBytes 4 0x02) ∧
    (∀ pa d k, mayStart s p (.copy p va rec) → va.toNat % 64 = 0 → offSpad pa → s.memErr pa 64 = false →
      s.reach (loomAgent c true) va .read = .ok [pa] → d = BitVec.ofNat 512 (leNat (Memory.read s.mem pa 64)) →
      descCheck d 0 true = none → s.queues = [(p.q, k)] → k.jobs = [] → (s.cluster 32).copies = [] →
      (∀ x ∈ s.plots, x.2.reset = false) →
      ∃ t x, exec (.copy p va rec) s = .next t ∧ onlyRead s t ∧
        (t.cluster 32).copies = [x] ∧ x.desc = d ∧ x.ctx = c ∧ x.tile = none ∧ x.q = p.q ∧ x.next = 0 ∧ x.beats = [] ∧
        t.queue p.q = { startedQueue s p with jobs := [jobOf s t p rec .copy] }) ∧
    (∀ ns, mayStart s p (.graph p va cap count rec) → s.readNodes c va count.toNat = .ok ns →
      (∀ n ∈ ns, n.pred ≠ 0 ∨ n.type = 1) → (∀ g ∈ (s.queue p.q).graphs, g.id ≤ (s.queue p.q).count) →
      ∃ t, exec (.graph p va cap count rec) s = .next t ∧ onlyRead s t ∧ t.plots = s.plots ∧
        t.queue p.q = { startedQueue s p with
          jobs := (s.queue p.q).jobs ++ [jobOf s t p rec .graph]
          graphs := (s.queue p.q).graphs ++
            [⟨(s.queue p.q).count + 1, va, cap.toNat, ns, 0, s.mp, none⟩] }) ∧
    (∀ e, mayStart s p (.graph p va cap count rec) → s.readNodes c va count.toNat = .error e →
      ∃ t, exec (.graph p va cap count rec) s = .next t ∧ sameRegs s t ∧ t.plots = s.plots ∧
        (t.queue p.q).stopped = true ∧ (t.queue p.q).jobs = (s.queue p.q).jobs ∧
        (t.queue p.q).graphs = (s.queue p.q).graphs))

/-- A queue is enabled from a descriptor that the policy core accepts; its doorbell makes words ready; the next packet
of its ring is read, and one that is malformed stops the queue with its words read; a wait ends when its compare holds, and stops the queue when its time is over; a queue that waits
rises a level, requests that wait are sent, and a queue with no work is reset, once no write of the Loom for its context is
held, the requests that no message has covered sent with the end of the reset (07 R127, 24 R408-R420, 30 R484). A running
SIGNAL node of a graph that completes takes one predecessor from each of its successors; a TIMED node whose offset has
come launches its timetable, and stops the queue and its graph where a predecessor has not completed; the message waits
for the graph's record while a node runs (24 R415, R418, R419). -/
def Obligations.QueuesAndGraphsAreServed : Prop :=
  (∀ (s : State) (q : Nat), s.down = false →
    (∀ d : BitVec 512, q < 256 → (s.queue q).enabled = false → (s.queue q).resetting = false →
      (d.getLsbD 241 = true → goodQueue d.toNat = true → ∃ t, exec (.queueEnable q d) s = .next t ∧ onlyQueue q s t ∧
        t.queue q = { Queue.reset with
          desc := d, enabled := true, readyMp := s.mp, count := (s.queue q).count
          level := (d.extractLsb' 248 3).toNat }) ∧
      (goodQueue d.toNat = false → exec (.queueEnable q d) s = .next s)) ∧
    (∀ v : BitVec 32, (q < 256 → (s.queue q).enabled = true → v.toNat < 2 ^ 22 → (s.boot.state = 1 ∨ s.boot.state = 2) →
        ∃ t, exec (.doorbell q v) s = .next t ∧ onlyQueue q s t ∧
          t.queue q = { s.queue q with tail := v.toNat % 2 ^ (s.queue q).fld 251 5 }) ∧
      ((s.queue q).enabled = false ∨ 2 ^ 22 ≤ v.toNat → exec (.doorbell q v) s = .next s)) ∧
    (∀ i bar w, (s.queue q).enabled = true → (s.queue q).stopped = false → (s.queue q).next = none →
      (s.queue q).bufs = [] → s.readPacket (s.queue q) q (s.queue q).head (s.queue q).ready
        (fun j => (s.queue q).fld 448 64 + 4 * (((s.queue q).head + j) % (s.queue q).size)) false = .packet i bar w →
      ∃ t, exec (.ringRead q) s = .next t ∧ t.plots = s.plots ∧ t.queue q = { s.queue q with
        head := ((s.queue q).head + w) % (s.queue q).size, next := some i, nextBar := bar }) ∧
    (∀ rec w, (s.queue q).enabled = true → (s.queue q).stopped = false → (s.queue q).next = none →
      (s.queue q).bufs = [] → w ≠ 0 → s.readPacket (s.queue q) q (s.queue q).head (s.queue q).ready
        (fun j => (s.queue q).fld 448 64 + 4 * (((s.queue q).head + j) % (s.queue q).size)) false = .error 0x10 rec w →
      ∃ t, exec (.ringRead q) s = .next t ∧ t.plots = s.plots ∧ (t.queue q).stopped = true ∧ (t.queue q).next = none ∧
        (t.queue q).head = ((s.queue q).head + w) % (s.queue q).size ∧ (t.queue q).jobs = (s.queue q).jobs) ∧
    (∀ j va val w64 cmp us, (s.queue q).waiting = some j → j.kind = .wait va val w64 cmp us →
      (j.recVa = 0 → s.rings = [] → (s.ctx (s.queue q).ctx).late = [] →
        s.loomCompare (s.queue q).ctx va val w64 cmp = .ok true →
        ∃ t, exec (.waitSatisfied q) s = .next t ∧ onlyRead s t ∧ t = { s with
          queues := t.queues, msix := t.msix, ctxs := t.ctxs, tiles := t.tiles, soft := t.soft, freeCtr := t.freeCtr } ∧
          requested j.irq s t { s.queue q with jobs := (s.queue q).jobs.filter (fun x => x.id != j.id) } (t.queue q)) ∧
      (s.loomCompare (s.queue q).ctx va val w64 cmp = .ok false → exec (.waitSatisfied q) s = .next s) ∧
      (us ≠ 0 → 4000 * us ≤ s.mp - j.mp → ∃ t, exec (.waitTimeout q) s = .next t ∧ (t.queue q).stopped = true ∧
        (t.queue q).jobs = (s.queue q).jobs.filter (fun x => x != j) ∧ t.plots = s.plots ∧
        ((s.ctx (s.queue q).ctx).late = [] → openRec s q → t.msix = (s.queue q).fld 260 12 :: s.msix))) ∧
    (s.startable q = true → (s.queue q).fld 296 24 ≠ 0 → (s.queue q).level < 7 →
      4000 * (s.queue q).fld 296 24 ≤ s.mp - (s.queue q).readyMp →
      ∃ t, exec (.queuePatienceExpiry q) s = .next t ∧ onlyQueue q s t ∧
        t.queue q = { s.queue q with level := (s.queue q).level + 1, readyMp := s.mp }) ∧
    ((s.queue q).irqs ≠ 0 → 4000 * (s.queue q).fld 280 16 ≤ s.mp - (s.queue q).irqMp →
      ∃ t, exec (.irqAgeExpiry q) s = .next t ∧ t = { s with queues := t.queues, msix := t.msix } ∧
        t.queue q = { s.queue q with irqs := 0 } ∧ t.msix = (s.queue q).fld 260 12 :: s.msix) ∧
    (∀ k, s.queues = [(q, k)] → k.next = none → k.jobs = [] → k.graphs = [] →
      (∀ x ∈ s.plots, x.2.q ≠ q ∧ x.2.reset = false) → (s.cluster 32).copies = [] →
      (k.enabled = true → k.bufs = [] → k.head = k.tail →
        ∃ t, exec (.queueReset q) s = .next t ∧ t.mem = s.mem ∧ t.plots = s.plots ∧ t.tiles = s.tiles ∧
          t.queue q = { k with enabled := false, resetting := true, bufs := [] }) ∧
      (k.resetting = true → (s.ctx k.ctx).late = [] → ∃ t, exec (.queueResetComplete q) s = .next t ∧
        t.plots = s.plots ∧ t.msix = (if k.irqs = 0 then s.msix else k.fld 260 12 :: s.msix) ∧
        t.queue q = { k with resetting := false, stopped := false, failed := false, next := none, irqs := 0 }) ∧
      ((s.ctx k.ctx).late ≠ [] → exec (.queueResetComplete q) s = .next s))) ∧
  (∀ (s : State) (q i : Nat) (g : GraphRun) (n : GNode), s.down = false → s.rings = [] → (s.queue q).graphs = [g] →
    g.node i = some n → g.stop = none →
    (∀ js, n.st = 1 → n.raw.toNat % 2 ^ 8 = 4 → js = (List.range (n.raw.toNat / 2 ^ 8 % 2 ^ 4)).map n.succ →
      js.Nodup → i ∉ js → (∀ j ∈ js, ∃ m, g.node j = some m ∧ 2 ≤ m.pred.toNat) →
      (∀ j m, g.node j = some m → m.st = 0 → m.pred ≠ 0 ∨ m.type = 1) →
      ∃ t h, exec (.graphNodeComplete q i) s = .next t ∧ t.mem = s.mem ∧ t.plots = s.plots ∧
        (t.queue q).graphs = [h] ∧ h.stop = none ∧ h.id = g.id ∧
        ∀ j m, g.node j = some m → h.node j = some
          (if j = i then { m with st := 2 } else if j ∈ js then { m with pred := m.pred - 1 } else m)) ∧
    (n.raw.toNat % 2 ^ 8 = 1 → n.st = 0 → n.timed = false → 4 * (n.raw.toNat / 2 ^ 256 % 2 ^ 40) ≤ s.mp - g.mp →
      (∀ tt, n.pred = 0 → s.pfail = none → s.admitTt (s.queue q).ctx n.va = .ok tt →
        ∃ t pl, exec (.timedNodeOffset q i) s = .next t ∧ afind t.plots s.plotNo = some pl ∧ pl.tt = tt ∧
          pl.st = .placing ∧ pl.node = some i ∧ onlyRead s t ∧
          ∃ h m, (t.queue q).graphs = [h] ∧ h.node i = some m ∧ m.st = 1) ∧
      (n.pred ≠ 0 → (∃ j m, g.node j = some m ∧ m.st = 1) →
        ∃ t h, exec (.timedNodeOffset q i) s = .next t ∧ (t.queue q).stopped = true ∧ t.plots = s.plots ∧
          t.msix = s.msix ∧ (t.queue q).graphs = [h] ∧ h.stop = some (6, 0x17, 0))))

namespace Sys2Proof.Claims
open Sys2Proof.Machine

/-! ### Power, observation, links, the policy core and the host (28 R456-R474, 29 R475-R481, 30 R485-R495, 07, 22) -/

/-- A byte of a store of 32-bit words. -/
def storeByte (m : Store 32) (x : Nat) : Nat := (sget 0 m (x / 4)).toNat / 2 ^ (8 * (x % 4)) % 256
/-- Pulses of every 16 that a band allows (28 R459). -/
def bandAllows (band : Nat) : Nat := if band = 0 then 16 else if band = 1 then 12 else if band = 2 then 8 else 4
/-- The largest allotment under the module's power limit, 1,500 W once the supply is lost, of 2,800 W at full pattern
(28 R459, R460, R471; DESIGN CHOICE, log entry 64). -/
def allotAtMost (s : State) : Nat :=
  Nat.max 1 (16 * (if s.pfail.isSome then Nat.min 1500 s.powerLimit else s.powerLimit) / 2800)
/-- The least of a band's pulses, an allotment and the policy core's limit, and at least one (28 R459). -/
def ceilingIs (s : State) (k : Cluster) : Nat :=
  Nat.max 1 (Nat.min (bandAllows k.band) (Nat.min (Nat.min k.allot (allotAtMost s)) k.limit))
/-- The lease of plot k has ended with a reason, and nothing else of a plot has changed (28 R463, R464). -/
def leaseOver (k : Nat) (pl : Plot) (reason : BitVec 4) (s t : State) : Prop :=
  ∃ q, afind t.plots k = some q ∧ q.lease.state = 3 ∧ q.lease.reason = reason ∧ q = { pl with lease := q.lease } ∧
    onlyPlot k s t

end Sys2Proof.Claims

open Sys2Proof Sys2Proof.Machine Sys2Proof.Claims

/-- Before the pulse that begins a frame the arbiter gives a cluster its allotment, within the power limit, and its ceiling
as its pattern, and there a plot its split; a droop
brings every cluster of its die to its floor for 4,000 mp at least and ends the leases there (28 R456-R461). A pending
lease is granted at no more than its pulses and its clusters' bands, or denied; a granted lease ends when its duration
has passed or its cap is spent (28 R463, R464). What the arbiter chooses is an argument of the rows; the ceiling of a
cluster with several leases is DEDUCED (log entry 24), the largest allotment under the power limit is the model’s (DESIGN
CHOICE, log entry 64), and a droop acts at once (DEDUCED, log entry 40). -/
def Obligations.PatternsAndLeasesFollowTheArbiter : Prop :=
  (∀ (s : State), s.down = false → s.rings = [] →
    (∀ cl a, s.mp % 16 = 0 → s.pulsed = false → cl < s.model.clusters → 1 ≤ a → s.pfail = none → s.leased cl = none → s.drooped cl = false →
      ∃ t, exec (.patternChange cl a) s = .next t ∧ t = { s with clusters := t.clusters } ∧
        (t.cluster cl).allot = Nat.min (allotAtMost s) a ∧
        (t.cluster cl).pat = ceilingIs s { s.cluster cl with allot := Nat.min (allotAtMost s) a } ∧
        ∀ x, x ≠ cl → t.cluster x = s.cluster x) ∧
    (∀ cl a, s.mp % 16 ≠ 0 ∨ s.pulsed = true → exec (.patternChange cl a) s = .next s) ∧
    (∀ k pl (l : BitVec 2), afind s.plots k = some pl → s.mp % 16 = 0 → pl.st = .running → pl.scMp = s.mp → l ≠ 3 →
      l ≠ pl.split →
      ((∀ n ∈ s.tilesOf k pl, (s.tile n).turn = false) → ∃ t, exec (.splitChange k l) s = .next t ∧ onlyPlot k s t ∧
        afind t.plots k = some { pl with split := l }) ∧
      ((∃ n ∈ s.tilesOf k pl, (s.tile n).turn = true) → exec (.splitChange k l) s = .next s)) ∧
    (∀ die, 16 * die < s.model.clusters → (∀ p ∈ s.plots, p.2.lease.state ≠ 2) →
      ∃ t, exec (.droop die) s = .next t ∧ t = { s with clusters := t.clusters, droops := t.droops } ∧
        afind t.droops die = some (s.mp + 4000) ∧
        ∀ i < 16, (t.cluster (16 * die + i)).pat = Nat.max 1
          (Nat.min (s.cluster (16 * die + i)).floor (ceilingIs s (s.cluster (16 * die + i))))) ∧
    (∀ die k pl, 16 * die < s.model.clusters → s.plots = [(k, pl)] → pl.live = true →
      (∃ cl ∈ pl.clusters, cl / 16 = die) → pl.lease.state = 2 →
      ∃ t q, exec (.droop die) s = .next t ∧ afind t.plots k = some q ∧ q.lease.state = 3 ∧ q.lease.reason = 7) ∧
    (∀ die u, afind s.droops die = some u →
      (u ≤ s.mp → ∃ t, exec (.droopFloorEnd die) s = .next t ∧ t = { s with droops := t.droops } ∧
        afind t.droops die = none ∧ ∀ d, d ≠ die → afind t.droops d = afind s.droops d) ∧
      (s.mp < u → exec (.droopFloorEnd die) s = .next s))) ∧
  (∀ (s : State) (k : Nat) (pl : Plot), s.down = false → s.rings = [] → afind s.plots k = some pl →
    (pl.lease.state = 1 → s.pfail = none → pl.lease.uj ≠ 0 → pl.live = true →
      ∃ t q, exec (.leaseGrant k) s = .next t ∧ onlyPlot k s t ∧ afind t.plots k = some q ∧ q.lease.state = 2 ∧
        q.lease.reason = 0 ∧ q.lease.us = pl.lease.us ∧ q.lease.uj = pl.lease.uj ∧ q.lease.mp = s.mp ∧
        q = { pl with lease := q.lease } ∧ q.lease.pulses ≤ pl.lease.ask ∧
        ∀ cl ∈ pl.clusters, q.lease.pulses ≤ bandAllows (s.cluster cl).band) ∧
    (∀ reason, pl.lease.state = 1 → pl.lease.again = false →
      ∃ t, exec (.leaseDeny k reason) s = .next t ∧ leaseOver k pl reason s t) ∧
    (pl.lease.state = 2 → pl.lease.us ≤ (s.mp - pl.lease.mp) / 4000 →
      ∃ t, exec (.leaseDurExpiry k) s = .next t ∧ leaseOver k pl 5 s t) ∧
    (pl.lease.state = 2 → 1024 * pl.lease.uj ≤ (s.ctx pl.ctx).energy.toNat - pl.lease.energy.toNat →
      ∃ t, exec (.leaseCapReached k) s = .next t ∧ leaseOver k pl 6 s t))

/-- The loss of the supply ends every lease; PFAIL asks a running plot to stop at its hold and after 200 µs forces it;
once no plot runs or is paused the keep store is written, each chunk with its seal and then the restart record, and the
module powers down (28 R471-R473); the places of the chunks are the model's (DESIGN CHOICE, log entry 13), and so is the
record of a D48N (65). A start in which every step succeeds ends READY with an empty module, or, where the one before failed
its third step, takes the alternative and ends DEGRADED; its monitor stores are loaded, its keep store is as before but for
the journal, and the restart record reads with its chunks checked; where step 6 fails the record reads as empty, and one
that fails its first step stops there and names it; a supply lost during a step leaves it begun (DEDUCED, log entry 70); a
module that is down starts as well, and one in the sequence of a loss does not (27 R435, 28 R471, R472, R474, 30 R485, R494,
R495). That a start clears memory is PRESUMED (log entry 43). -/
def Obligations.SupplyLossAndStart : Prop :=
  (∀ (s : State) (k : Nat) (pl : Plot), s.down = false → s.rings = [] →
    (s.pfail = none → ∃ t, exec .supplyLoss s = .next t ∧ t = { s with pfail := t.pfail, plots := t.plots } ∧
      t.pfail = some ⟨s.mp, 0, 0, []⟩ ∧ (afind s.plots k = some pl → ∃ q, afind t.plots k = some q ∧
        (pl.lease.state = 1 ∨ pl.lease.state = 2 → q.lease.state = 3 ∧ q.lease.reason = 4) ∧
        (pl.lease.state = 0 ∨ pl.lease.state = 3 → q = pl))) ∧
    (afind s.plots k = some pl → pl.st = .running → pl.taken = none →
      (s.pfail ≠ none → pl.pfailAt = none → pl.overdue = false →
        ∃ t, exec (.pfailArrival k) s = .next t ∧ onlyPlot k s t ∧
          afind t.plots k = some { pl with pfailAt := some s.mp, stops := pl.stops ++ [⟨.pfail, 0xE8, 0, 0⟩] }) ∧
      (∀ m, pl.pfailAt = some m → 800000 ≤ s.mp - m → pl.forced = none →
        ∃ t, exec (.pfailHoldTimeout k) s = .next t ∧ onlyPlot k s t ∧
          afind t.plots k = some { pl with forced := some (
            if ∀ m ∈ s.tilesOf k pl, (s.tile m).turn = false then pl.scyc else pl.scyc + 1, ⟨.pfail, 0xE8, 0, 0⟩) })) ∧
    (∀ f, s.pfail = some f → (∀ p ∈ s.plots, p.2.st ≠ .running ∧ p.2.st ≠ .paused) →
      ∃ t, exec .keepStoreSave s = .next t ∧ t.down = true ∧ t.mem = s.mem ∧ t.tiles = s.tiles ∧ t.plots = s.plots ∧
        t.pfail = some { f with chunks := s.chunkList.length, uj := (s.chunkList.map (fun c => c.m.chunkCost)).sum } ∧
        ((∀ p ∈ s.plots, p.2.charged = false) →
          Memory.read t.keep 0 64 = leBytes 64 ((f.mp / 4 + s.nsOff.toNat) % 2 ^ 64 * 2 ^ 448)) ∧
        (64 + 32 * s.items.length ≤ 0x200000 →
          Memory.read t.keep 0 64 = leBytes 64 ((f.mp / 4 + s.nsOff.toNat) % 2 ^ 64 * 2 ^ 448 +
            s.items.length * 2 ^ 416 + s.chunkList.length * 2 ^ 384 +
            (s.chunkList.map (fun c => c.m.chunkCost)).sum * 2 ^ 352) ∧
          (∀ i e, s.items[i]? = some e →
            Memory.read t.keep (64 + 32 * i) 32 = leBytes 32 (s.restartEntry s.chunkList e.1 e.2.1 e.2.2)) ∧
          ∀ i c b, s.chunkList[i]? = some c → b = s.chunkBytes c.pl c.m c.rank c.index →
            Memory.read t.keep (0x200000 + 4128 * i) 4096 = b ∧
            Memory.read t.keep (0x200000 + 4128 * i + 4096) 32 =
              sealOf b (i + 1) c.pl.tt.imageId.toNat c.index c.rank c.item c.pl.ctx)) ∧
    ((∃ p ∈ s.plots, p.2.st = .running ∨ p.2.st = .paused) → exec .keepStoreSave s = .next s)) ∧
  (∀ (s : State) (r : StartRun), s.pfail ≠ none → s.down = false → exec (.moduleStart r) s = .next s) ∧
  (∀ (s : State) (r : StartRun) (n : Nat), s.pfail = none ∨ s.down = true → n = (restartEntries s.keep).length →
    (r.badTiles = [] → r.badBanks = [] → r.links = [] →
      (r.fails = 0 → r.cut = 0 → ∃ t, exec (.moduleStart r) s = .next t ∧
        (s.boot.retrain = false → t.boot.state = 1 ∧ t.boot.last = 8 ∧ t.boot.fail = 0 ∧ t.down = false ∧
          t.boot.journal = (List.range 8).flatMap (fun i => [(i + 1, 1), (i + 1, 2)])) ∧
        (s.boot.retrain = true → s.boot.trained = true →
          t.boot.state = 2 ∧ t.boot.last = 8 ∧ t.boot.fail = 0 ∧ t.boot.retrain = false) ∧
        (s.boot.retrain = true → s.boot.trained = false → t.boot.state = 3 ∧ t.boot.last = 3 ∧ t.boot.fail = 3) ∧
        t.mem = [] ∧ t.plots = [] ∧ t.mp = 0 ∧
        (r.monitor = [] → t.tiles = []) ∧
        (s.boot.retrain = false → ∀ m < s.model.tiles,
          t.tile m = { Tile.reset with seq := { Tile.reset.seq with mstore := r.monitor } }) ∧
        (∀ x, x < 0x100000 ∨ 0x100022 ≤ x → Memory.get t.keep x = Memory.get s.keep x) ∧
        (64 + 32 * n ≤ 0x100000 → t.restartRead = checkedFrom s.keep 0 (restartEntries s.keep))) ∧
      (r.fails = 0x20 → r.cut = 0 → s.boot.retrain = false → ∃ t, exec (.moduleStart r) s = .next t ∧
        t.boot.state = 2 ∧ t.boot.last = 8 ∧ t.boot.fail = 6 ∧ t.restartRead = [] ∧
        ∀ x, x < 0x100000 ∨ 0x100022 ≤ x → Memory.get t.keep x = Memory.get s.keep x) ∧
      (∀ i, 1 ≤ i → i ≤ 8 → r.fails = 0 → r.cut = i → s.boot.retrain = false →
        ∃ t, exec (.moduleStart r) s = .next t ∧ t.down = true ∧ t.boot.last.toNat = i ∧
          t.boot.journal = (List.range (i - 1)).flatMap (fun j => [(j + 1, 1), (j + 1, 2)]) ++ [(i, 1)] ∧
          (t.boot.retrain = true ↔ i = 3))) ∧
    (r.fails.getLsbD 0 = true → r.cut ≠ 1 → ∃ t, exec (.moduleStart r) s = .next t ∧ t.boot.state = 3 ∧ t.boot.last = 1 ∧
      t.boot.fail = 1 ∧ t.boot.journal = [(1, 1), (1, 3)] ∧ t.mem = [] ∧ t.plots = []))

/-- A sample that is due writes its record behind the others of its partition's ring; a counter block receives its
sequence, the time and its sixteen counters, at most every 10 µs; a link trains at its rate or fails, and forms the plot
group as it is cabled; it is lost, or its stream lane alone, and a plot that spans it is stopped in every tile, those that it has still to take
among them; an attestation request
is answered with the signed measurement of its index, and a manifest read with the entries from a number on (29
R478-R481, 30 R486-R493). Ring addresses are physical (DESIGN CHOICE, log entry 27), digests and signatures are
constants without a value (log entry 8). -/
def Obligations.ObservationLinksAndAttestation : Prop :=
  ∀ (s : State), s.down = false →
    (∀ n pl q tl hd w, s.plotOf n = some pl → s.sampleDue n = true → pl.ctx ≠ 0 → pl.ctx < 64 →
      s.rings = [(s.partOf pl.ctx, q)] → tl = leNat (Memory.read s.mem q.ctl 8) →
      hd = leNat (Memory.read s.mem (q.ctl + 8) 8) → (tl + 2 ^ 64 - hd) % 2 ^ 64 < 2 ^ q.size →
      (q.ctl + 8 ≤ q.base ∨ q.base + 32 * 2 ^ q.size ≤ q.ctl) → w = q.base + 32 * (tl % 2 ^ q.size) →
      ∃ t, exec (.pcSample n) s = .next t ∧ t.sampled = n :: s.sampled ∧ t.plots = s.plots ∧ t.tiles = s.tiles ∧
        Memory.read t.mem q.ctl 8 = leBytes 8 (tl + 1) ∧
        leNat (Memory.read t.mem w 32) / 2 ^ 184 % 2 ^ 8 = 0x60 ∧
        leNat (Memory.read t.mem w 32) / 2 ^ 178 % 2 ^ 6 = pl.ctx ∧
        (∀ x, (x < w ∨ w + 32 ≤ x) → (x < q.ctl ∨ q.ctl + 8 ≤ x) → Memory.get t.mem x = Memory.get s.mem x)) ∧
    (∀ p q, afind s.parts p = some q → q.blockPa ≠ 0 → s.mp - q.snapMp < 40000 →
      exec (.counterSnapshot p) s = .next s) ∧
    (∀ p q, afind s.parts p = some q → q.blockPa ≠ 0 → 40000 ≤ s.mp - q.snapMp → ∃ t, exec (.counterSnapshot p) s = .next t ∧
      t.tiles = s.tiles ∧ t.plots = s.plots ∧
      storedAt s.mem t.mem q.blockPa (leBytes 8 (q.blockSeq + 1).toNat ++
        leBytes 8 (s.mp / 4 + s.nsOff.toNat) ++
        Memory.read s.mem (q.blockPa + 16) 48 ++ (List.range 16).flatMap (fun i => leBytes 8 (aget 0 q.counts i).toNat))) ∧
    (∀ l pm pk fl r p, p ∈ s.plots → s.spansLink p.2 l = true → exec (.linkTraining l pm pk fl r) s = .next s) ∧
    (∀ l pm pk fl r, l < s.model.links → 1 ≤ r → r ≤ 3 → (∀ p ∈ s.plots, s.spansLink p.2 l = false) →
      ∃ t, exec (.linkTraining l pm pk fl r) s = .next t ∧
      t = { s with links := t.links, group := t.group, nsOff := t.nsOff, freeCtr := t.freeCtr } ∧
      t.group = t.cabledGroup ∧ (t.group.2.2 = 0 → t.nsOff = s.nsOff) ∧ (∀ j, j ≠ l → t.link j = s.link j) ∧
      (t.link l).peerMod = BitVec.ofNat 8 pm ∧ (t.link l).peerLink = BitVec.ofNat 4 pk ∧
      (r = 1 → 150000 < fl → (t.link l).state = 3 ∧ (t.link l).stream = false) ∧
      (r ≠ 1 ∨ fl ≤ 150000 → (t.link l).state = 2 ∧ (t.link l).rate = BitVec.ofNat 8 r ∧
        (r ≠ 1 → (t.link l).stream = false))) ∧
    (∀ l, (s.link l).state = 2 → (∀ p ∈ s.plots, s.spansLink p.2 l = false) →
      (∃ t, exec (.linkLoss (.down l)) s = .next t ∧ t = { s with links := t.links } ∧
        t.link l = { s.link l with stream := false, rate := 0, state := 0 } ∧ ∀ j, j ≠ l → t.link j = s.link j) ∧
      ((s.link l).stream = true → ∃ t, exec (.linkLoss (.lane l)) s = .next t ∧ t = { s with links := t.links } ∧
        t.link l = { s.link l with stream := false } ∧ ∀ j, j ≠ l → t.link j = s.link j)) ∧
    (∀ l k pl n, (s.link l).state = 2 → s.plots = [(k, pl)] → pl.st = .running → s.spansLink pl l = true →
      n ∈ s.tilesOf k pl → (s.tile n).trap.sup = false → (s.tile n).trap.halted = false → (s.tile n).seq.ended = false →
      (s.tile n).trap.stopAt = none → ∃ t, exec (.linkLoss (.down l)) s = .next t ∧ (t.link l).state = 0 ∧
        (t.tile n).trap.stopAt = some (pl.scyc, BitVec.ofNat 64 (l % 2 ^ 24 * 2 ^ 16)) ∧
        (t.tile n).regs = (s.tile n).regs) ∧
    (∀ l k pl, (s.link l).state = 2 → s.plots = [(k, pl)] → pl.st = .armed → s.spansLink pl l = true →
      ∃ t p, exec (.linkLoss (.down l)) s = .next t ∧ (t.link l).state = 0 ∧ afind t.plots k = some p ∧
        p.psent = some (pl.scyc, BitVec.ofNat 64 (l % 2 ^ 24 * 2 ^ 16))) ∧
    (∀ i m, (s.measure i = some m → exec (.spdmRequest i) s = .next { s with answers := signed m :: s.answers }) ∧
      (s.measure i = none → exec (.spdmRequest i) s = .next { s with answers := [] :: s.answers })) ∧
    (∀ i m, s.measure 16 = some m → exec (.manifestRead i) s =
      .next { s with answers := signed ((s.manifest.drop i).flatten ++ m) :: s.answers })

/-- The policy core installs a range entry that it does not refuse, which takes effect with the invalidation that
follows, at once in a live context without work outstanding; it locks a page of a hot stack, for a place that holds no live data, and moves it with its leaf once no beat in flight
writes it, with no translation of the old page left; it marks the service strata of a tile that no plot holds, where those that change hold no
live data (07 R115, R116, R127, R129, 04 R82). When it may do so is DEDUCED (log entry 44). -/
def Obligations.ThePolicyCoreChangesTheTables : Prop :=
  ∀ (s : State), s.down = false →
    (∀ c i (e : BitVec 256), c < 64 → i < 64 → e.getLsbD 63 = true →
      (s.rangeBad c i (RangeE.clean e) = false → s.liveCtx c = false ∨ s.ctxIdle c = true →
        ∃ t, exec (.rangeEntryInstall c i e) s = .next t ∧
        t = { s with ctxs := t.ctxs } ∧ sget 0 (t.ctx c).ranges i = RangeE.clean e ∧
        (∀ j, j ≠ i → sget 0 (t.ctx c).ranges j = sget 0 (s.ctx c).ranges j ∧
          sget 0 (t.ctx c).active j = sget 0 (s.ctx c).active j) ∧
        sget 0 (t.ctx c).active i = (if s.liveCtx c = true then RangeE.clean e else sget 0 (s.ctx c).active i) ∧
        ∀ d, d ≠ c → t.ctx d = s.ctx d) ∧
      (s.liveCtx c = true → s.ctxIdle c = false → exec (.rangeEntryInstall c i e) s = .next s) ∧
      (s.rangeBad c i (RangeE.clean e) = true → exec (.rangeEntryInstall c i e) s = .next s)) ∧
    (∀ c, ∃ t, exec (.translationInvalidate c) s = .next t ∧ t = { s with ctxs := t.ctxs, tlb := t.tlb } ∧
      t.ctx c = { s.ctx c with active := (s.ctx c).ranges, ptActive := (s.ctx c).ptroot, ptMem := s.mem } ∧
      (∀ cl p, t.cached cl c p = none) ∧ ∀ d, d ≠ c → t.ctx d = s.ctx d ∧ ∀ cl p, t.cached cl d p = s.cached cl d p) ∧
    (∀ c va new a pte, s.movable c va = some (a, pte) → (s.ctx c).migration = none → new < 2 ^ 48 → new % 2 ^ 19 = 0 →
      s.localPlace new = .here new → (s.cluster (clusterOf (new / 2 ^ 29))).band <
        (s.cluster (clusterOf (pteAddr pte / 2 ^ 29 % 512))).band → new / 2 ^ 29 < 512 →
      (anyMeet [(new, 2 ^ 19)] (s.liveSpans ++ s.slotSpans) = false →
        (∀ x ∈ s.ctxs, ∀ m, x.2.migration = some m → m.2 + 2 ^ 19 ≤ new ∨ new + 2 ^ 19 ≤ m.2) →
        ∃ t, exec (.pageMigration c va new) s = .next t ∧ t = { s with ctxs := t.ctxs } ∧
          t.ctx c = { s.ctx c with migration := some (va, new) }) ∧
      (anyMeet [(new, 2 ^ 19)] (s.liveSpans ++ s.slotSpans) = true →
        exec (.pageMigration c va new) s = .next s)) ∧
    (∀ c (va : BitVec 64) new a pte l old, (s.ctx c).migration = some (va, new) → Memory.wf s.mem = true →
      (s.ctx c).ptActive ≠ 0 → s.leafAddr (s.ctx c).ptMem va.toNat 4 0 (s.ctx c).ptActive.toNat = some (a, pte, l) →
      old = pteAddr pte → s.beatInto old = none → (s.ctx c).late = [] → s.queues = [] →
      old + 2 ^ 19 ≤ new ∨ new + 2 ^ 19 ≤ old → a + 8 ≤ new ∨ new + 2 ^ 19 ≤ a → new < 2 ^ 52 → new % 256 = 0 →
      ∃ t, exec (.pageMigrationCopyDone c) s = .next t ∧ (s.soft = [] → t.tiles = s.tiles) ∧
        (t.ctx c).migration = none ∧
        pteAddr (BitVec.ofNat 64 (leNat (Memory.read (t.ctx c).ptMem a 8))) = new ∧
        (∀ i < 2 ^ 19, Memory.get t.mem (new + i) = Memory.get s.mem (old + i)) ∧
        pteAddr (BitVec.ofNat 64 (leNat (Memory.read t.mem a 8))) = new ∧
        (∀ x, (x < new ∨ new + 2 ^ 19 ≤ x) → (x < a ∨ a + 8 ≤ x) → Memory.get t.mem x = Memory.get s.mem x) ∧
        (∀ cl, t.cached cl c (va.toNat / 2 ^ 19) = none) ∧
        ∀ e ∈ t.tlb, ∀ p w, e.found = .leaf p w → pteAddr p ≠ old) ∧
    (∀ c (va : BitVec 64) new a pte l x, (s.ctx c).migration = some (va, new) → (s.ctx c).ptActive ≠ 0 →
      s.leafAddr (s.ctx c).ptMem va.toNat 4 0 (s.ctx c).ptActive.toNat = some (a, pte, l) →
      s.beatInto (pteAddr pte) = some x → s.queues = [] → exec (.pageMigrationCopyDone c) s = .next s) ∧
    (∀ n (m : BitVec 4) st, st < 4 → m.getLsbD st ≠ (s.tile n).vault.svcMark.getLsbD st → s.holdsData n st = true →
      exec (.serviceMarkingChange n m) s = .next s) ∧
    (∀ n (m : BitVec 4), n < s.model.tiles → (s.tile n).plot = none →
      (∀ st < 4, m.getLsbD st ≠ (s.tile n).vault.svcMark.getLsbD st → s.holdsData n st = false) →
      ((List.range 4).filter (fun i => m.getLsbD i)).length ≤ 2 → ∃ t, exec (.serviceMarkingChange n m) s = .next t ∧
        onlyTile n s t ∧ t.tile n = { s.tile n with vault := { (s.tile n).vault with svcMark := m } })

/-- The host reads and writes service strata inside its decoders, a peer what an inbound window holds, and the policy
core's registers take the values in their range: a monitor store its bytes, the fault record of a context its cleared V,
the power limits, the counters and their block, the head of a ring, windows and decoders; EVEC is the monitor's and takes no
value from it; a query for an item of the restart record answers its entry, or that it is absent; BAR0 shows
BOOTSTAT and LINKSTAT, takes the doorbells, which read as zero, and holds the mailbox (00 R11, 07 R125, R126, R131, 22 R387,
27 R435, 28 R459-R461, R473, R474, 29 R478, R479, R481, 30 R483, R484, R489). What a peer's access is (log entry 47), the
places of a context's header (39) and of a block and a ring (27), EVEC (52) and the places in BAR0 (63) are the model’s
(DESIGN CHOICE, PRESUMED). -/
def Obligations.TheHostAndThePolicyCoreAreServed : Prop :=
  ∀ (s : State), s.down = false →
    (∀ pa len, s.hostReaches pa len = true → s.memErr pa len = false →
      exec (.hostCxlMemRead pa len) s = .next { s with answers := Memory.read s.mem pa len :: s.answers }) ∧
    (∀ pa b, s.hostReaches pa b.length = true → ∃ t, exec (.hostCxlMemWrite pa b) s = .next t ∧
      storedAt s.mem t.mem pa b ∧
      t = { s with mem := t.mem, errs := t.errs, soft := t.soft, answers := [] :: s.answers }) ∧
    (∀ pa q, s.place pa = .here q → q < 2 ^ 48 →
      (∀ len m, len ≠ 0 → (∃ w ∈ s.inbound, w.2.1 ≤ pa ∧ pa + len ≤ w.2.1 + w.2.2) → s.memErr q len = false →
        ∃ t, exec (.peerAccessArrival pa ⟨.read len, m⟩) s = .next t ∧ t.mem = s.mem ∧ sameRegs s t ∧
          t.answers = Memory.read s.mem q len :: s.answers ∧
          (s.soft = [] → t = { s with answers := Memory.read s.mem q len :: s.answers })) ∧
      (∀ b m, b ≠ [] → (∃ w ∈ s.inbound, w.2.1 ≤ pa ∧ pa + b.length ≤ w.2.1 + w.2.2) →
        ∃ t, exec (.peerAccessArrival pa ⟨.write b, m⟩) s = .next t ∧ storedAt s.mem t.mem q b ∧
          t = { s with mem := t.mem, errs := t.errs, soft := t.soft, answers := [] :: s.answers }) ∧
      (∀ op w64 x cmp old r m, (∃ w ∈ s.inbound, w.2.1 ≤ pa ∧ pa + wide w64 ≤ w.2.1 + w.2.2) →
        s.memErr q (wide w64) = false → old = leNat (Memory.read s.mem q (wide w64)) →
        r = atomNew op (8 * wide w64) old (x.toNat % 2 ^ (8 * wide w64)) (cmp.toNat % 2 ^ (8 * wide w64)) →
        ∃ t, exec (.peerAccessArrival pa ⟨.atomic op w64 x cmp, m⟩) s = .next t ∧
          storedAt s.mem t.mem q (leBytes (wide w64) r.1) ∧ sameRegs s t ∧
          t.answers = (leBytes (wide w64) old ++ [r.2]) :: s.answers) ∧
      (∀ acc, s.inbound = [] → exec (.peerAccessArrival pa acc) s = .next { s with answers := [] :: s.answers })) ∧
    (∀ n v, exec (.registerWrite (.evec n v)) s = .next s) ∧
    (∀ n a b, (n < s.model.tiles → a + b.length ≤ 65536 →
        ∃ t m, exec (.registerWrite (.monitor n a b)) s = .next t ∧ onlyTile n s t ∧
          t.tile n = { s.tile n with seq := { (s.tile n).seq with mstore := m } } ∧
          ∀ x, storeByte m x = if a ≤ x ∧ x < a + b.length then (b.getD (x - a) 0).toNat
            else storeByte (s.tile n).seq.mstore x) ∧
      (65536 < a + b.length → exec (.registerWrite (.monitor n a b)) s = .next s)) ∧
    (∀ c old, old = leNat (Memory.read s.mem (s.headerPa c) 8) →
      (old.testBit 63 = true → ∃ t, exec (.registerWrite (.faultClear c)) s = .next t ∧
        storedAt s.mem t.mem (s.headerPa c) (leBytes 8 (old - 2 ^ 63)) ∧
        t = { s with mem := t.mem, errs := t.errs, soft := t.soft }) ∧
      (old.testBit 63 = false → exec (.registerWrite (.faultClear c)) s = .next s)) ∧
    (∀ c w, c < 64 → ∃ t, exec (.registerWrite (.ctxPower c w)) s = .next t ∧ t = { s with ctxs := t.ctxs } ∧
      t.ctx c = { s.ctx c with power := w } ∧ ∀ d, d ≠ c → t.ctx d = s.ctx d) ∧
    (∀ p, p < 8 →
      (∀ w, ∃ t, exec (.registerWrite (.partPower p w)) s = .next t ∧ t = { s with parts := t.parts } ∧
        t.part p = { s.part p with power := w } ∧ ∀ j, j ≠ p → t.part j = s.part j) ∧
      (∀ i code, i < 16 → ∃ t, exec (.registerWrite (.counter p i code)) s = .next t ∧ t = { s with parts := t.parts } ∧
        t.part p = { s.part p with codes := (t.part p).codes } ∧ (∀ j, j ≠ p → t.part j = s.part j) ∧
        ∀ j, aget 0 (t.part p).codes j = if j = i then code else aget 0 (s.part p).codes j) ∧
      ∀ pa, ∃ t, exec (.registerWrite (.counterBlock p pa)) s = .next t ∧ t = { s with parts := t.parts } ∧
        t.part p = { s.part p with blockPa := pa, snapMp := s.mp } ∧ ∀ j, j ≠ p → t.part j = s.part j) ∧
    (∀ r q h, afind s.rings r = some q → ∃ t, exec (.registerWrite (.ringHead r h)) s = .next t ∧
      storedAt s.mem t.mem (q.ctl + 8) (leBytes 8 h.toNat) ∧
      t = { s with mem := t.mem, errs := t.errs, soft := t.soft }) ∧
    (∀ i a n, i < 16 → ∃ t, exec (.registerWrite (.inbound i a n)) s = .next t ∧ t = { s with inbound := t.inbound } ∧
      ∀ j, afind t.inbound j = if j = i then some (a, n) else afind s.inbound j) ∧
    (∀ i a n,
      ((∃ x ∈ s.ctxs, anyMeet (s.ownSpans [(a, n)]) (s.unshared x.2) = true) →
        exec (.registerWrite (.hdm i a n)) s = .next s) ∧
      ((∀ x ∈ s.ctxs, anyMeet (s.ownSpans [(a, n)]) (s.unshared x.2) = false) →
        ∃ t, exec (.registerWrite (.hdm i a n)) s = .next t ∧ t = { s with hdm := t.hdm } ∧
          ∀ j, afind t.hdm j = if j = i then some (a, n) else afind s.hdm j)) ∧
    (∀ c i, ∃ e, exec (.registerWrite (.restartItem c i)) s = .next { s with answers := leBytes 32 e :: s.answers } ∧
      ((∀ x ∈ s.restartRead, x / 2 ^ 26 % 2 ^ 6 ≠ c ∨ x / 2 ^ 22 % 2 ^ 4 ≠ i) → e = c * 2 ^ 26 + i * 2 ^ 22) ∧
      ((∃ x ∈ s.restartRead, x / 2 ^ 26 % 2 ^ 6 = c ∧ x / 2 ^ 22 % 2 ^ 4 = i) →
        e ∈ s.restartRead ∧ e / 2 ^ 26 % 2 ^ 6 = c ∧ e / 2 ^ 22 % 2 ^ 4 = i)) ∧
    (∀ c p a, c < 64 → ∃ t, exec (.registerWrite (.context c p a)) s = .next t ∧ t = { s with ctxs := t.ctxs } ∧
      t.ctx c = { Ctx.reset with part := p, savePa := a } ∧ ∀ d, d ≠ c → t.ctx d = s.ctx d) ∧
    (∀ c a, c < 64 → ∃ t, exec (.registerWrite (.ptroot c a)) s = .next t ∧ t = { s with ctxs := t.ctxs } ∧
      t.ctx c = { s.ctx c with ptroot := a } ∧ ∀ d, d ≠ c → t.ctx d = s.ctx d) ∧
    (∀ w, (w ≤ 2800 → exec (.registerWrite (.powerLimit w)) s = .next { s with powerLimit := w }) ∧
      (2800 < w → exec (.registerWrite (.powerLimit w)) s = .next s)) ∧
    (∀ c d, c < s.model.clusters → 1 ≤ d → d ≤ 16 →
      (∃ t, exec (.registerWrite (.floor c d)) s = .next t ∧ t = { s with clusters := t.clusters } ∧
        t.cluster c = { s.cluster c with floor := d }) ∧
      ∃ t, exec (.registerWrite (.clusterLimit c d)) s = .next t ∧ t = { s with clusters := t.clusters } ∧
        t.cluster c = { s.cluster c with limit := d }) ∧
    (∀ r b n a, r ≤ 8 → 6 ≤ n → n ≤ 20 → ∃ t, exec (.registerWrite (.ring r b n a)) s = .next t ∧
      t = { s with rings := t.rings } ∧ afind t.rings r = some ⟨b, n, a, 0⟩) ∧
    (∀ p i, p < 8 → (i = 0 ∨ (4096 ≤ i ∧ i ≤ 2 ^ 24)) → ∃ t, exec (.registerWrite (.sampling p i)) s = .next t ∧
      t = { s with parts := t.parts } ∧ t.part p = { s.part p with sampling := i }) ∧
    (∀ c r m, ((c, r, m) = s.cabledGroup →
        exec (.registerWrite (.group c r m)) s = .next { s with group := (c, r, m) }) ∧
      ((c, r, m) ≠ s.cabledGroup → exec (.registerWrite (.group c r m)) s = .next s)) ∧
    (∀ q v, q < 256 → exec (.registerWrite (.bar0 (0x100000 + 8 * q) v)) s = exec (.doorbell q v) s ∧
      exec (.registerWrite (.bar0Read (0x100000 + 8 * q) 1)) s = .next { s with answers := [0, 0, 0, 0] :: s.answers }) ∧
    (∀ i v, 0x400000 ≤ i → i < 0x800000 →
      (∃ t, exec (.registerWrite (.bar0 (4 * i) v)) s = .next t ∧ t = { s with bar0 := t.bar0 } ∧
        ∀ j, sget 0 t.bar0 j = if j = i then v else sget 0 s.bar0 j) ∧
      exec (.registerWrite (.bar0Read (4 * i) 1)) s =
        .next { s with answers := leBytes 4 (sget 0 s.bar0 i).toNat :: s.answers }) ∧
    (∀ o v, o < 0x100000 → exec (.registerWrite (.bar0 o v)) s = .next s) ∧
    (exec (.registerWrite (.bar0Read 0 2)) s = .next { s with answers := leBytes 8 s.boot.word :: s.answers }) ∧
    (∀ l < 12, exec (.registerWrite (.bar0Read (0x100 + 8 * l) 2)) s =
      .next { s with answers := leBytes 8 (s.link l).word :: s.answers }) ∧
    exec (.registerWrite .restartRead) s = .next { s with
      answers := (Memory.read s.keep 0 52 ++ leBytes 4 (if s.boot.unread = true then 0 else leNat (Memory.read s.keep 52 4)) ++
        Memory.read s.keep 56 8 ++ s.restartRead.flatMap (leBytes 32)) :: s.answers }
end

