-- ==== Sys2Proof/Laws/Dispatch.lean ====
section
/-! SUPPORT. The arm of each instruction, as an equation. -/
namespace Sys2Proof.Machine

@[simp] theorem exec_br (off : BitVec 24) (s : State) : exec (.br off) s = execBr off s := rfl
@[simp] theorem exec_brp (p : BitVec 4) (neg : Bool) (off : BitVec 19) (s : State) :
    exec (.brp p neg off) s = execBrp p neg off s := rfl
@[simp] theorem exec_call (off : BitVec 24) (s : State) : exec (.call off) s = execCall off s := rfl
@[simp] theorem exec_ret (s : State) : exec (.ret) s = execRet s := rfl
@[simp] theorem exec_jmps (a : BitVec 6) (link : Bool) (s : State) : exec (.jmps a link) s = execJmps a link s := rfl
@[simp] theorem exec_loop (cnt fin : BitVec 12) (s : State) : exec (.loop cnt fin) s = execLoop cnt fin s := rfl
@[simp] theorem exec_loopv (a : BitVec 6) (fin : BitVec 12) (s : State) :
    exec (.loopv a fin) s = execLoopv a fin s := rfl
@[simp] theorem exec_loops (dir : Dir) (lane ex : BitVec 4) (age : Age) (fin : BitVec 12) (s : State) :
    exec (.loops dir lane ex age fin) s = execLoops dir lane ex age fin s := rfl
@[simp] theorem exec_leave (s : State) : exec (.leave) s = execLeave s := rfl
@[simp] theorem exec_walkn (p w : BitVec 4) (sc : BScope) (s : State) :
    exec (.walkn p w sc) s = execWalkn p w sc s := rfl
@[simp] theorem exec_align (target : BitVec 48) (s : State) : exec (.align target) s = execAlign target s := rfl
@[simp] theorem exec_hold (im : BitVec 6) (s : State) : exec (.hold im) s = execHold im s := rfl
@[simp] theorem exec_waita (a b : BitVec 6) (cmp : Cmp) (w64 hm : Bool) (h : BitVec 6) (off : BitVec 20) (s : State) :
    exec (.waita a b cmp w64 hm h off) s = execWaita a b cmp w64 hm h off s := rfl
@[simp] theorem exec_bari (bar : BitVec 6) (sc : BScope) (arr : BitVec 16) (bedw bedh : BitVec 3) (b : BitVec 6) (s : State) :
    exec (.bari bar sc arr bedw bedh b) s = execBari bar sc arr bedw bedh b s := rfl
@[simp] theorem exec_bara (bar : BitVec 6) (s : State) : exec (.bara bar) s = execBara bar s := rfl
@[simp] theorem exec_barw (hm ph : Bool) (h bar : BitVec 6) (s : State) :
    exec (.barw hm ph h bar) s = execBarw hm ph h bar s := rfl
@[simp] theorem exec_fence (sc : Scope) (s : State) : exec (.fence sc) s = execFence sc s := rfl
@[simp] theorem exec_trap (code : BitVec 16) (s : State) : exec (.trap code) s = execTrap code s := rfl
@[simp] theorem exec_sysc (code : BitVec 16) (s : State) : exec (.sysc code) s = execSysc code s := rfl
@[simp] theorem exec_eret (s : State) : exec (.eret) s = execEret s := rfl
@[simp] theorem exec_lease (pulses : BitVec 5) (dur : BitVec 19) (cap : BitVec 20) (s : State) :
    exec (.lease pulses dur cap) s = execLease pulses dur cap s := rfl
@[simp] theorem exec_mark (a : BitVec 6) (tag : BitVec 16) (s : State) :
    exec (.mark a tag) s = execMark a tag s := rfl
@[simp] theorem exec_savept (item : BitVec 4) (a : BitVec 6) (s : State) :
    exec (.savept item a) s = execSavept item a s := rfl
@[simp] theorem exec_ovl (page : BitVec 12) (frame : BitVec 5) (bar : BitVec 6) (s : State) :
    exec (.ovl page frame bar) s = execOvl page frame bar s := rfl
@[simp] theorem exec_add (d a b : BitVec 6) (s : State) : exec (.add d a b) s = execAdd d a b s := rfl
@[simp] theorem exec_sub (d a b : BitVec 6) (s : State) : exec (.sub d a b) s = execSub d a b s := rfl
@[simp] theorem exec_mul (d a b : BitVec 6) (s : State) : exec (.mul d a b) s = execMul d a b s := rfl
@[simp] theorem exec_mulh (d a b : BitVec 6) (s : State) : exec (.mulh d a b) s = execMulh d a b s := rfl
@[simp] theorem exec_mulhu (d a b : BitVec 6) (s : State) : exec (.mulhu d a b) s = execMulhu d a b s := rfl
@[simp] theorem exec_and (d a b : BitVec 6) (s : State) : exec (.and d a b) s = execAnd d a b s := rfl
@[simp] theorem exec_or (d a b : BitVec 6) (s : State) : exec (.or d a b) s = execOr d a b s := rfl
@[simp] theorem exec_xor (d a b : BitVec 6) (s : State) : exec (.xor d a b) s = execXor d a b s := rfl
@[simp] theorem exec_andn (d a b : BitVec 6) (s : State) : exec (.andn d a b) s = execAndn d a b s := rfl
@[simp] theorem exec_shl (d a b : BitVec 6) (s : State) : exec (.shl d a b) s = execShl d a b s := rfl
@[simp] theorem exec_shr (d a b : BitVec 6) (s : State) : exec (.shr d a b) s = execShr d a b s := rfl
@[simp] theorem exec_sar (d a b : BitVec 6) (s : State) : exec (.sar d a b) s = execSar d a b s := rfl
@[simp] theorem exec_rol (d a b : BitVec 6) (s : State) : exec (.rol d a b) s = execRol d a b s := rfl
@[simp] theorem exec_min (d a b : BitVec 6) (s : State) : exec (.min d a b) s = execMin d a b s := rfl
@[simp] theorem exec_max (d a b : BitVec 6) (s : State) : exec (.max d a b) s = execMax d a b s := rfl
@[simp] theorem exec_minu (d a b : BitVec 6) (s : State) : exec (.minu d a b) s = execMinu d a b s := rfl
@[simp] theorem exec_maxu (d a b : BitVec 6) (s : State) : exec (.maxu d a b) s = execMaxu d a b s := rfl
@[simp] theorem exec_clz (d a : BitVec 6) (s : State) : exec (.clz d a) s = execClz d a s := rfl
@[simp] theorem exec_popc (d a : BitVec 6) (s : State) : exec (.popc d a) s = execPopc d a s := rfl
@[simp] theorem exec_extb (d a b w : BitVec 6) (s : State) : exec (.extb d a b w) s = execExtb d a b w s := rfl
@[simp] theorem exec_insb (d a b w : BitVec 6) (s : State) : exec (.insb d a b w) s = execInsb d a b w s := rfl
@[simp] theorem exec_sel (d a b : BitVec 6) (p : BitVec 4) (s : State) :
    exec (.sel d a b p) s = execSel d a b p s := rfl
@[simp] theorem exec_addi (d a : BitVec 6) (im : BitVec 12) (s : State) :
    exec (.addi d a im) s = execAddi d a im s := rfl
@[simp] theorem exec_andi (d a : BitVec 6) (im : BitVec 12) (s : State) :
    exec (.andi d a im) s = execAndi d a im s := rfl
@[simp] theorem exec_ori (d a : BitVec 6) (im : BitVec 12) (s : State) :
    exec (.ori d a im) s = execOri d a im s := rfl
@[simp] theorem exec_xori (d a : BitVec 6) (im : BitVec 12) (s : State) :
    exec (.xori d a im) s = execXori d a im s := rfl
@[simp] theorem exec_shli (d a h : BitVec 6) (s : State) : exec (.shli d a h) s = execShli d a h s := rfl
@[simp] theorem exec_shri (d a h : BitVec 6) (s : State) : exec (.shri d a h) s = execShri d a h s := rfl
@[simp] theorem exec_sari (d a h : BitVec 6) (s : State) : exec (.sari d a h) s = execSari d a h s := rfl
@[simp] theorem exec_li (d : BitVec 6) (im : BitVec 32) (s : State) : exec (.li d im) s = execLi d im s := rfl
@[simp] theorem exec_lih (d : BitVec 6) (im : BitVec 32) (s : State) : exec (.lih d im) s = execLih d im s := rfl
@[simp] theorem exec_cmpeq (d : BitVec 4) (a b : BitVec 6) (s : State) :
    exec (.cmpeq d a b) s = execCmpeq d a b s := rfl
@[simp] theorem exec_cmpne (d : BitVec 4) (a b : BitVec 6) (s : State) :
    exec (.cmpne d a b) s = execCmpne d a b s := rfl
@[simp] theorem exec_cmplt (d : BitVec 4) (a b : BitVec 6) (s : State) :
    exec (.cmplt d a b) s = execCmplt d a b s := rfl
@[simp] theorem exec_cmple (d : BitVec 4) (a b : BitVec 6) (s : State) :
    exec (.cmple d a b) s = execCmple d a b s := rfl
@[simp] theorem exec_cmpltu (d : BitVec 4) (a b : BitVec 6) (s : State) :
    exec (.cmpltu d a b) s = execCmpltu d a b s := rfl
@[simp] theorem exec_cmpleu (d : BitVec 4) (a b : BitVec 6) (s : State) :
    exec (.cmpleu d a b) s = execCmpleu d a b s := rfl
@[simp] theorem exec_cmpeqi (d : BitVec 4) (a : BitVec 6) (im : BitVec 12) (s : State) :
    exec (.cmpeqi d a im) s = execCmpeqi d a im s := rfl
@[simp] theorem exec_cmplti (d : BitVec 4) (a : BitVec 6) (im : BitVec 12) (s : State) :
    exec (.cmplti d a im) s = execCmplti d a im s := rfl
@[simp] theorem exec_pand (d a b : BitVec 4) (s : State) : exec (.pand d a b) s = execPand d a b s := rfl
@[simp] theorem exec_por (d a b : BitVec 4) (s : State) : exec (.por d a b) s = execPor d a b s := rfl
@[simp] theorem exec_pxor (d a b : BitVec 4) (s : State) : exec (.pxor d a b) s = execPxor d a b s := rfl
@[simp] theorem exec_pnot (d a : BitVec 4) (s : State) : exec (.pnot d a) s = execPnot d a s := rfl
@[simp] theorem exec_movs (d : BitVec 6) (id : BitVec 12) (s : State) : exec (.movs d id) s = execMovs d id s := rfl
@[simp] theorem exec_movt (a : BitVec 6) (id : BitVec 12) (s : State) : exec (.movt a id) s = execMovt a id s := rfl
@[simp] theorem exec_movp (a b : BitVec 6) (s : State) : exec (.movp a b) s = execMovp a b s := rfl
@[simp] theorem exec_movps (d : BitVec 6) (s : State) : exec (.movps d) s = execMovps d s := rfl
@[simp] theorem exec_fadd (d a b : BitVec 6) (rm : Rm) (s : State) :
    exec (.fadd d a b rm) s = execFadd d a b rm s := rfl
@[simp] theorem exec_fsub (d a b : BitVec 6) (rm : Rm) (s : State) :
    exec (.fsub d a b rm) s = execFsub d a b rm s := rfl
@[simp] theorem exec_fmul (d a b : BitVec 6) (rm : Rm) (s : State) :
    exec (.fmul d a b rm) s = execFmul d a b rm s := rfl
@[simp] theorem exec_ffma (d a b x : BitVec 6) (rm : Rm) (s : State) :
    exec (.ffma d a b x rm) s = execFfma d a b x rm s := rfl
@[simp] theorem exec_fcmplt (d : BitVec 4) (a b : BitVec 6) (s : State) :
    exec (.fcmplt d a b) s = execFcmplt d a b s := rfl
@[simp] theorem exec_fcmpeq (d : BitVec 4) (a b : BitVec 6) (s : State) :
    exec (.fcmpeq d a b) s = execFcmpeq d a b s := rfl
@[simp] theorem exec_fcvti (d a : BitVec 6) (w64 uns sat : Bool) (rm : Rm) (s : State) :
    exec (.fcvti d a w64 uns sat rm) s = execFcvti d a w64 uns sat rm s := rfl
@[simp] theorem exec_fcvtf (d a : BitVec 6) (w64 uns : Bool) (rm : Rm) (s : State) :
    exec (.fcvtf d a w64 uns rm) s = execFcvtf d a w64 uns rm s := rfl
@[simp] theorem exec_vadd (f : VArith) (s : State) : exec (.vadd f) s = execVadd f s := rfl
@[simp] theorem exec_vsub (f : VArith) (s : State) : exec (.vsub f) s = execVsub f s := rfl
@[simp] theorem exec_vmul (f : VArith) (s : State) : exec (.vmul f) s = execVmul f s := rfl
@[simp] theorem exec_vfma (f : VArith) (s : State) : exec (.vfma f) s = execVfma f s := rfl
@[simp] theorem exec_vmin (f : VBin) (s : State) : exec (.vmin f) s = execVmin f s := rfl
@[simp] theorem exec_vmax (f : VBin) (s : State) : exec (.vmax f) s = execVmax f s := rfl
@[simp] theorem exec_vabs (f : VUn) (s : State) : exec (.vabs f) s = execVabs f s := rfl
@[simp] theorem exec_vneg (f : VUn) (s : State) : exec (.vneg f) s = execVneg f s := rfl
@[simp] theorem exec_vand (f : VBin) (s : State) : exec (.vand f) s = execVand f s := rfl
@[simp] theorem exec_vor (f : VBin) (s : State) : exec (.vor f) s = execVor f s := rfl
@[simp] theorem exec_vxor (f : VBin) (s : State) : exec (.vxor f) s = execVxor f s := rfl
@[simp] theorem exec_vshl (f : VBin) (s : State) : exec (.vshl f) s = execVshl f s := rfl
@[simp] theorem exec_vshr (f : VBin) (s : State) : exec (.vshr f) s = execVshr f s := rfl
@[simp] theorem exec_vsar (f : VBin) (s : State) : exec (.vsar f) s = execVsar f s := rfl
@[simp] theorem exec_vsel (f : VBin) (s : State) : exec (.vsel f) s = execVsel f s := rfl
@[simp] theorem exec_vcmpeq (f : VBin) (s : State) : exec (.vcmpeq f) s = execVcmpeq f s := rfl
@[simp] theorem exec_vcmplt (f : VBin) (s : State) : exec (.vcmplt f) s = execVcmplt f s := rfl
@[simp] theorem exec_vcmple (f : VBin) (s : State) : exec (.vcmple f) s = execVcmple f s := rfl
@[simp] theorem exec_vmov (fmt : Fmt) (dst a : View) (rstep : BitVec 3) (s : State) :
    exec (.vmov fmt dst a rstep) s = execVmov fmt dst a rstep s := rfl
@[simp] theorem exec_vbcs (fmt : Fmt) (dst : View) (a : BitVec 6) (rstep : BitVec 3) (s : State) :
    exec (.vbcs fmt dst a rstep) s = execVbcs fmt dst a rstep s := rfl
@[simp] theorem exec_viota (fmt : Fmt) (dst : View) (a b : BitVec 6) (rstep : BitVec 3) (s : State) :
    exec (.viota fmt dst a b rstep) s = execViota fmt dst a b rstep s := rfl
@[simp] theorem exec_vmadw (fmt : Fmt) (sat : Bool) (sel : BitVec 3) (dst a b : View) (rstep : BitVec 3) (s : State) :
    exec (.vmadw fmt sat sel dst a b rstep) s = execVmadw fmt sat sel dst a b rstep s := rfl
@[simp] theorem exec_vmulh (f : VBin) (s : State) : exec (.vmulh f) s = execVmulh f s := rfl
@[simp] theorem exec_vcvt (f : VCvt) (s : State) : exec (.vcvt f) s = execVcvt f s := rfl
@[simp] theorem exec_vcvtef (f : VCvt) (s : State) : exec (.vcvtef f) s = execVcvtef f s := rfl
@[simp] theorem exec_vsacc (fmt : Fmt) (rm : Rm) (sat uni : Bool) (dst a b : View) (rstep : BitVec 3) (s : State) :
    exec (.vsacc fmt rm sat uni dst a b rstep) s = execVsacc fmt rm sat uni dst a b rstep s := rfl
@[simp] theorem exec_vrng (fmt : Fmt) (dst : View) (rstep : BitVec 3) (s : State) :
    exec (.vrng fmt dst rstep) s = execVrng fmt dst rstep s := rfl
@[simp] theorem exec_vrotr (f : VShift) (s : State) : exec (.vrotr f) s = execVrotr f s := rfl
@[simp] theorem exec_vrotc (f : VShift) (s : State) : exec (.vrotc f) s = execVrotc f s := rfl
@[simp] theorem exec_vbcr (f : VShift) (s : State) : exec (.vbcr f) s = execVbcr f s := rfl
@[simp] theorem exec_vbcc (f : VShift) (s : State) : exec (.vbcc f) s = execVbcc f s := rfl
@[simp] theorem exec_vredr (f : VRed) (s : State) : exec (.vredr f) s = execVredr f s := rfl
@[simp] theorem exec_vredc (f : VRed) (s : State) : exec (.vredc f) s = execVredc f s := rfl
@[simp] theorem exec_vshfr (f : VShift) (s : State) : exec (.vshfr f) s = execVshfr f s := rfl
@[simp] theorem exec_vshfc (f : VShift) (s : State) : exec (.vshfc f) s = execVshfc f s := rfl
@[simp] theorem exec_vtrn (fmt : Fmt) (dst a : View) (rstep : BitVec 3) (s : State) :
    exec (.vtrn fmt dst a rstep) s = execVtrn fmt dst a rstep s := rfl
@[simp] theorem exec_vpart (fmt : Fmt) (dst a : View) (b : BitVec 6) (rstep : BitVec 3) (s : State) :
    exec (.vpart fmt dst a b rstep) s = execVpart fmt dst a b rstep s := rfl
@[simp] theorem exec_vcnt (fmt : Fmt) (d : BitVec 6) (a : View) (rstep : BitVec 3) (s : State) :
    exec (.vcnt fmt d a rstep) s = execVcnt fmt d a rstep s := rfl
@[simp] theorem exec_vargm (fmt : Fmt) (mn : Bool) (d : BitVec 6) (a : View) (rstep : BitVec 3) (s : State) :
    exec (.vargm fmt mn d a rstep) s = execVargm fmt mn d a rstep s := rfl
@[simp] theorem exec_dnorm (fmt : Fmt) (g : Grp) (d : BitVec 6) (a : View) (rstep : BitVec 3) (s : State) :
    exec (.dnorm fmt g d a rstep) s = execDnorm fmt g d a rstep s := rfl
@[simp] theorem exec_dcvt (fmt : Fmt) (g : Grp) (dst : View) (a : BitVec 6) (rstep : BitVec 3) (s : State) :
    exec (.dcvt fmt g dst a rstep) s = execDcvt fmt g dst a rstep s := rfl
@[simp] theorem exec_ddot (f : DTri) (s : State) : exec (.ddot f) s = execDdot f s := rfl
@[simp] theorem exec_ddotn (f : DTri) (s : State) : exec (.ddotn f) s = execDdotn f s := rfl
@[simp] theorem exec_dscl (f : DPair) (s : State) : exec (.dscl f) s = execDscl f s := rfl
@[simp] theorem exec_dneg (f : DPair) (s : State) : exec (.dneg f) s = execDneg f s := rfl
@[simp] theorem exec_dadd (f : DTri) (s : State) : exec (.dadd f) s = execDadd f s := rfl
@[simp] theorem exec_dsub (f : DTri) (s : State) : exec (.dsub f) s = execDsub f s := rfl
@[simp] theorem exec_dmix (f : DTri) (s : State) : exec (.dmix f) s = execDmix f s := rfl
@[simp] theorem exec_dproj (f : DTri) (s : State) : exec (.dproj f) s = execDproj f s := rfl
@[simp] theorem exec_dsim (g : Grp) (dst : View) (a b : BitVec 6) (rstep : BitVec 3) (s : State) :
    exec (.dsim g dst a b rstep) s = execDsim g dst a b rstep s := rfl
@[simp] theorem exec_dzt (g : Grp) (p : BitVec 4) (a : BitVec 6) (rstep : BitVec 3) (s : State) :
    exec (.dzt g p a rstep) s = execDzt g p a rstep s := rfl
@[simp] theorem exec_dmov (f : DPair) (s : State) : exec (.dmov f) s = execDmov f s := rfl
@[simp] theorem exec_dgetn (f : DPair) (s : State) : exec (.dgetn f) s = execDgetn f s := rfl
@[simp] theorem exec_dsetn (f : DPair) (s : State) : exec (.dsetn f) s = execDsetn f s := rfl
@[simp] theorem exec_frcp (f : FUn) (s : State) : exec (.frcp f) s = execFrcp f s := rfl
@[simp] theorem exec_frsq (f : FUn) (s : State) : exec (.frsq f) s = execFrsq f s := rfl
@[simp] theorem exec_fsqrt (f : FUn) (s : State) : exec (.fsqrt f) s = execFsqrt f s := rfl
@[simp] theorem exec_fexp2 (f : FUn) (s : State) : exec (.fexp2 f) s = execFexp2 f s := rfl
@[simp] theorem exec_flog2 (f : FUn) (s : State) : exec (.flog2 f) s = execFlog2 f s := rfl
@[simp] theorem exec_fsin (f : FUn) (s : State) : exec (.fsin f) s = execFsin f s := rfl
@[simp] theorem exec_fcos (f : FUn) (s : State) : exec (.fcos f) s = execFcos f s := rfl
@[simp] theorem exec_ftanh (f : FUn) (s : State) : exec (.ftanh f) s = execFtanh f s := rfl
@[simp] theorem exec_fsigm (f : FUn) (s : State) : exec (.fsigm f) s = execFsigm f s := rfl
@[simp] theorem exec_fdiv (fmt : Fmt) (rm : Rm) (dst a b : View) (rstep : BitVec 3) (s : State) :
    exec (.fdiv fmt rm dst a b rstep) s = execFdiv fmt rm dst a b rstep s := rfl
@[simp] theorem exec_sdiv (f : SDiv) (s : State) : exec (.sdiv f) s = execSdiv f s := rfl
@[simp] theorem exec_sdivu (f : SDiv) (s : State) : exec (.sdivu f) s = execSdivu f s := rfl
@[simp] theorem exec_srem (f : SDiv) (s : State) : exec (.srem f) s = execSrem f s := rfl
@[simp] theorem exec_sremu (f : SDiv) (s : State) : exec (.sremu f) s = execSremu f s := rfl
@[simp] theorem exec_ldv (v : View) (m : MAddr) (s : State) : exec (.ldv v m) s = execLdv v m s := rfl
@[simp] theorem exec_stv (v : View) (m : MAddr) (s : State) : exec (.stv v m) s = execStv v m s := rfl
@[simp] theorem exec_lds (sx : Bool) (size : Size) (sb : BitVec 6) (m : MAddr) (s : State) :
    exec (.lds sx size sb m) s = execLds sx size sb m s := rfl
@[simp] theorem exec_sts (size : Size) (sb : BitVec 6) (m : MAddr) (s : State) :
    exec (.sts size sb m) s = execSts size sb m s := rfl
@[simp] theorem exec_ldg (v : View) (m : MAddr) (s : State) : exec (.ldg v m) s = execLdg v m s := rfl
@[simp] theorem exec_stg (v : View) (m : MAddr) (s : State) : exec (.stg v m) s = execStg v m s := rfl
@[simp] theorem exec_ldd (g : Grp) (d : BitVec 6) (m : MAddr) (s : State) :
    exec (.ldd g d m) s = execLdd g d m s := rfl
@[simp] theorem exec_std (g : Grp) (d : BitVec 6) (m : MAddr) (s : State) :
    exec (.std g d m) s = execStd g d m s := rfl
@[simp] theorem exec_ldwb (h : Bool) (sb sc : BitVec 6) (m : MAddr) (s : State) :
    exec (.ldwb h sb sc m) s = execLdwb h sb sc m s := rfl
@[simp] theorem exec_aadd (w64 : Bool) (sb sc : BitVec 6) (m : MAddr) (s : State) :
    exec (.aadd w64 sb sc m) s = execAadd w64 sb sc m s := rfl
@[simp] theorem exec_afadd (w64 : Bool) (sb sc : BitVec 6) (m : MAddr) (s : State) :
    exec (.afadd w64 sb sc m) s = execAfadd w64 sb sc m s := rfl
@[simp] theorem exec_amin (w64 : Bool) (sb sc : BitVec 6) (m : MAddr) (s : State) :
    exec (.amin w64 sb sc m) s = execAmin w64 sb sc m s := rfl
@[simp] theorem exec_amax (w64 : Bool) (sb sc : BitVec 6) (m : MAddr) (s : State) :
    exec (.amax w64 sb sc m) s = execAmax w64 sb sc m s := rfl
@[simp] theorem exec_aminu (w64 : Bool) (sb sc : BitVec 6) (m : MAddr) (s : State) :
    exec (.aminu w64 sb sc m) s = execAminu w64 sb sc m s := rfl
@[simp] theorem exec_amaxu (w64 : Bool) (sb sc : BitVec 6) (m : MAddr) (s : State) :
    exec (.amaxu w64 sb sc m) s = execAmaxu w64 sb sc m s := rfl
@[simp] theorem exec_aand (w64 : Bool) (sb sc : BitVec 6) (m : MAddr) (s : State) :
    exec (.aand w64 sb sc m) s = execAand w64 sb sc m s := rfl
@[simp] theorem exec_aor (w64 : Bool) (sb sc : BitVec 6) (m : MAddr) (s : State) :
    exec (.aor w64 sb sc m) s = execAor w64 sb sc m s := rfl
@[simp] theorem exec_axor (w64 : Bool) (sb sc : BitVec 6) (m : MAddr) (s : State) :
    exec (.axor w64 sb sc m) s = execAxor w64 sb sc m s := rfl
@[simp] theorem exec_axch (w64 : Bool) (sb sc : BitVec 6) (m : MAddr) (s : State) :
    exec (.axch w64 sb sc m) s = execAxch w64 sb sc m s := rfl
@[simp] theorem exec_acas (w64 : Bool) (sb sc : BitVec 6) (m : MAddr) (s : State) :
    exec (.acas w64 sb sc m) s = execAcas w64 sb sc m s := rfl
@[simp] theorem exec_aaddRem (w64 : Bool) (sb bar : BitVec 6) (m : MAddr) (s : State) :
    exec (.aaddRem w64 sb bar m) s = execAaddRem w64 sb bar m s := rfl
@[simp] theorem exec_afaddRem (w64 : Bool) (sb bar : BitVec 6) (m : MAddr) (s : State) :
    exec (.afaddRem w64 sb bar m) s = execAfaddRem w64 sb bar m s := rfl
@[simp] theorem exec_aminRem (w64 : Bool) (sb bar : BitVec 6) (m : MAddr) (s : State) :
    exec (.aminRem w64 sb bar m) s = execAminRem w64 sb bar m s := rfl
@[simp] theorem exec_amaxRem (w64 : Bool) (sb bar : BitVec 6) (m : MAddr) (s : State) :
    exec (.amaxRem w64 sb bar m) s = execAmaxRem w64 sb bar m s := rfl
@[simp] theorem exec_aminuRem (w64 : Bool) (sb bar : BitVec 6) (m : MAddr) (s : State) :
    exec (.aminuRem w64 sb bar m) s = execAminuRem w64 sb bar m s := rfl
@[simp] theorem exec_amaxuRem (w64 : Bool) (sb bar : BitVec 6) (m : MAddr) (s : State) :
    exec (.amaxuRem w64 sb bar m) s = execAmaxuRem w64 sb bar m s := rfl
@[simp] theorem exec_aandRem (w64 : Bool) (sb bar : BitVec 6) (m : MAddr) (s : State) :
    exec (.aandRem w64 sb bar m) s = execAandRem w64 sb bar m s := rfl
@[simp] theorem exec_aorRem (w64 : Bool) (sb bar : BitVec 6) (m : MAddr) (s : State) :
    exec (.aorRem w64 sb bar m) s = execAorRem w64 sb bar m s := rfl
@[simp] theorem exec_axorRem (w64 : Bool) (sb bar : BitVec 6) (m : MAddr) (s : State) :
    exec (.axorRem w64 sb bar m) s = execAxorRem w64 sb bar m s := rfl
@[simp] theorem exec_axchRem (w64 : Bool) (sb bar : BitVec 6) (m : MAddr) (s : State) :
    exec (.axchRem w64 sb bar m) s = execAxchRem w64 sb bar m s := rfl
@[simp] theorem exec_acasRem (w64 : Bool) (sb bar : BitVec 6) (m : MAddr) (s : State) :
    exec (.acasRem w64 sb bar m) s = execAcasRem w64 sb bar m s := rfl
@[simp] theorem exec_ldr (acq : Option Scope) (sb bar : BitVec 6) (m : MAddr) (s : State) :
    exec (.ldr acq sb bar m) s = execLdr acq sb bar m s := rfl
@[simp] theorem exec_str (rel : Option Scope) (sb bar : BitVec 6) (m : MAddr) (s : State) :
    exec (.str rel sb bar m) s = execStr rel sb bar m s := rfl
@[simp] theorem exec_shcpy (sb : BitVec 6) (m : MAddr) (s : State) : exec (.shcpy sb m) s = execShcpy sb m s := rfl
@[simp] theorem exec_publ (bar : BitVec 6) (sc : Scope) (m : MAddr) (s : State) :
    exec (.publ bar sc m) s = execPubl bar sc m s := rfl
@[simp] theorem exec_shcan (sa : BitVec 6) (rstep : BitVec 3) (s : State) :
    exec (.shcan sa rstep) s = execShcan sa rstep s := rfl
@[simp] theorem exec_shqry (sa sb : BitVec 6) (rstep : BitVec 3) (s : State) :
    exec (.shqry sa sb rstep) s = execShqry sa sb rstep s := rfl
@[simp] theorem exec_mma (f : XMma) (s : State) : exec (.mma f) s = execMma f s := rfl
@[simp] theorem exec_mmaz (f : XMma) (s : State) : exec (.mmaz f) s = execMmaz f s := rfl
@[simp] theorem exec_mseq (f : XSeq) (s : State) : exec (.mseq f) s = execMseq f s := rfl
@[simp] theorem exec_mzero (acc : BitVec 3) (i32 : Bool) (rstep : BitVec 3) (s : State) :
    exec (.mzero acc i32 rstep) s = execMzero acc i32 rstep s := rfl
@[simp] theorem exec_mrd (f : XMove) (s : State) : exec (.mrd f) s = execMrd f s := rfl
@[simp] theorem exec_mwr (f : XMove) (s : State) : exec (.mwr f) s = execMwr f s := rfl
@[simp] theorem exec_kset (bank side : Bool) (v : View) (rstep : Bool) (s : State) :
    exec (.kset bank side v rstep) s = execKset bank side v rstep s := rfl
@[simp] theorem exec_kone (bank : Bool) (s : State) : exec (.kone bank) s = execKone bank s := rfl
@[simp] theorem exec_act (st : BitVec 2) (bk : BitVec 4) (row : BitVec 12) (step : BitVec 6) (s : State) :
    exec (.act st bk row step) s = execAct st bk row step s := rfl
@[simp] theorem exec_rd (f : DCol) (s : State) : exec (.rd f) s = execRd f s := rfl
@[simp] theorem exec_wr (f : DCol) (s : State) : exec (.wr f) s = execWr f s := rfl
@[simp] theorem exec_rda (f : DCol) (s : State) : exec (.rda f) s = execRda f s := rfl
@[simp] theorem exec_wra (f : DCol) (s : State) : exec (.wra f) s = execWra f s := rfl
@[simp] theorem exec_pre (st : BitVec 2) (bk : BitVec 4) (step : BitVec 6) (s : State) :
    exec (.pre st bk step) s = execPre st bk step s := rfl
@[simp] theorem exec_prea (st : BitVec 2) (s : State) : exec (.prea st) s = execPrea st s := rfl
@[simp] theorem exec_ref (st : BitVec 2) (s : State) : exec (.ref st) s = execRef st s := rfl
@[simp] theorem exec_refb (st : BitVec 2) (bk : BitVec 4) (step : BitVec 6) (s : State) :
    exec (.refb st bk step) s = execRefb st bk step s := rfl
@[simp] theorem exec_sdrv (g : NGrp) (o : NOpnd) (s : State) : exec (.sdrv g o) s = execSdrv g o s := rfl
@[simp] theorem exec_stap (g : NGrp) (o : NOpnd) (st : Stamp) (s : State) :
    exec (.stap g o st) s = execStap g o st s := rfl
@[simp] theorem exec_sfwd (g : NGrp) (o : NOpnd) (st : Stamp) (odir : Dir) (olane : BitVec 4) (s : State) :
    exec (.sfwd g o st odir olane) s = execSfwd g o st odir olane s := rfl
@[simp] theorem exec_seos (g : NGrp) (s : State) : exec (.seos g) s = execSeos g s := rfl
@[simp] theorem exec_sred (g : NGrp) (o : NOpnd) (st : Stamp) (odir : Dir) (olane : BitVec 4) (rfmt : BitVec 2) (s : State) :
    exec (.sred g o st odir olane rfmt) s = execSred g o st odir olane rfmt s := rfl
@[simp] theorem exec_bundleIssue (tile : Nat) (s : State) : exec (.bundleIssue tile) s = execBundleIssue tile s := rfl
@[simp] theorem exec_exposedResultLands (tile : Nat) (s : State) :
    exec (.exposedResultLands tile) s = execExposedResultLands tile s := rfl
@[simp] theorem exec_ovlLoadComplete (tile : Nat) (s : State) :
    exec (.ovlLoadComplete tile) s = execOvlLoadComplete tile s := rfl
@[simp] theorem exec_ldwbComplete (tile : Nat) (s : State) :
    exec (.ldwbComplete tile) s = execLdwbComplete tile s := rfl
@[simp] theorem exec_mmaPass1Start (tile : Nat) (s : State) :
    exec (.mmaPass1Start tile) s = execMmaPass1Start tile s := rfl
@[simp] theorem exec_mmaResultReady (tile : Nat) (s : State) :
    exec (.mmaResultReady tile) s = execMmaResultReady tile s := rfl
@[simp] theorem exec_mseqStepStart (tile : Nat) (s : State) :
    exec (.mseqStepStart tile) s = execMseqStepStart tile s := rfl
@[simp] theorem exec_vaultLanding (tile : Nat) (s : State) :
    exec (.vaultLanding tile) s = execVaultLanding tile s := rfl
@[simp] theorem exec_wrSample (tile : Nat) (s : State) : exec (.wrSample tile) s = execWrSample tile s := rfl
@[simp] theorem exec_prechargePoint (tile bank : Nat) (s : State) :
    exec (.prechargePoint tile bank) s = execPrechargePoint tile bank s := rfl
@[simp] theorem exec_refreshComplete (tile bank : Nat) (s : State) :
    exec (.refreshComplete tile bank) s = execRefreshComplete tile bank s := rfl
@[simp] theorem exec_drefl (tile : Nat) (s : State) : exec (.drefl tile) s = execDrefl tile s := rfl
@[simp] theorem exec_mpRefreshDeadline (tile bank : Nat) (s : State) :
    exec (.mpRefreshDeadline tile bank) s = execMpRefreshDeadline tile bank s := rfl
@[simp] theorem exec_bandChange (cluster celsius : Nat) (s : State) :
    exec (.bandChange cluster celsius) s = execBandChange cluster celsius s := rfl
@[simp] theorem exec_refreshGuardRefresh (tile bank : Nat) (s : State) :
    exec (.refreshGuardRefresh tile bank) s = execRefreshGuardRefresh tile bank s := rfl
@[simp] theorem exec_sidePortServe (tile id : Nat) (s : State) :
    exec (.sidePortServe tile id) s = execSidePortServe tile id s := rfl
@[simp] theorem exec_dynamicAccessEnd (tile id : Nat) (s : State) :
    exec (.dynamicAccessEnd tile id) s = execDynamicAccessEnd tile id s := rfl
@[simp] theorem exec_pageWalkComplete (die : Nat) (s : State) :
    exec (.pageWalkComplete die) s = execPageWalkComplete die s := rfl
@[simp] theorem exec_replicaCommit (tile id : Nat) (s : State) :
    exec (.replicaCommit tile id) s = execReplicaCommit tile id s := rfl
@[simp] theorem exec_publishSwap (ctx : Nat) (s : State) : exec (.publishSwap ctx) s = execPublishSwap ctx s := rfl
@[simp] theorem exec_shuttleBeatIssue (cluster : Nat) (s : State) :
    exec (.shuttleBeatIssue cluster) s = execShuttleBeatIssue cluster s := rfl
@[simp] theorem exec_shuttleBeatComplete (cluster : Nat) (s : State) :
    exec (.shuttleBeatComplete cluster) s = execShuttleBeatComplete cluster s := rfl
@[simp] theorem exec_barrierPhaseComplete (tile bar : Nat) (s : State) :
    exec (.barrierPhaseComplete tile bar) s = execBarrierPhaseComplete tile bar s := rfl
@[simp] theorem exec_barrierCompletionSeen (tile bar : Nat) (s : State) :
    exec (.barrierCompletionSeen tile bar) s = execBarrierCompletionSeen tile bar s := rfl
@[simp] theorem exec_barwResume (tile : Nat) (s : State) : exec (.barwResume tile) s = execBarwResume tile s := rfl
@[simp] theorem exec_waitaReadReturn (tile : Nat) (s : State) :
    exec (.waitaReadReturn tile) s = execWaitaReadReturn tile s := rfl
@[simp] theorem exec_streamValueArrives (tile : Nat) (dir : Dir) (lane : BitVec 4) (data : BitVec 256) (stamp : BitVec 16) (eos : Bool) (s : State) :
    exec (.streamValueArrives tile dir lane data stamp eos) s = execStreamValueArrives tile dir lane data stamp eos s := rfl
@[simp] theorem exec_holdRelease (plot : Nat) (s : State) : exec (.holdRelease plot) s = execHoldRelease plot s := rfl
@[simp] theorem exec_holdto (tile : Nat) (s : State) : exec (.holdto tile) s = execHoldto tile s := rfl
@[simp] theorem exec_plotOverdue (plot : Nat) (s : State) : exec (.plotOverdue plot) s = execPlotOverdue plot s := rfl
@[simp] theorem exec_plotStopArrival (tile : Nat) (s : State) :
    exec (.plotStopArrival tile) s = execPlotStopArrival tile s := rfl
@[simp] theorem exec_preemptRequest (plot : Nat) (sub : BitVec 8) (s : State) :
    exec (.preemptRequest plot sub) s = execPreemptRequest plot sub s := rfl
@[simp] theorem exec_forcedStop (plot : Nat) (s : State) : exec (.forcedStop plot) s = execForcedStop plot s := rfl
@[simp] theorem exec_plotResume (plot x0 y0 : Nat) (s : State) :
    exec (.plotResume plot x0 y0) s = execPlotResume plot x0 y0 s := rfl
@[simp] theorem exec_retentionEntry (cluster : Nat) (s : State) :
    exec (.retentionEntry cluster) s = execRetentionEntry cluster s := rfl
@[simp] theorem exec_plotArming (plot x0 y0 : Nat) (s : State) :
    exec (.plotArming plot x0 y0) s = execPlotArming plot x0 y0 s := rfl
@[simp] theorem exec_startPulse (plot : Nat) (s : State) : exec (.startPulse plot) s = execStartPulse plot s := rfl
@[simp] theorem exec_tileFreed (tile : Nat) (s : State) : exec (.tileFreed tile) s = execTileFreed tile s := rfl
@[simp] theorem exec_doorbell (q : Nat) (v : BitVec 32) (s : State) :
    exec (.doorbell q v) s = execDoorbell q v s := rfl
@[simp] theorem exec_ringRead (q : Nat) (s : State) : exec (.ringRead q) s = execRingRead q s := rfl
@[simp] theorem exec_queueEnable (q : Nat) (d : BitVec 512) (s : State) :
    exec (.queueEnable q d) s = execQueueEnable q d s := rfl
@[simp] theorem exec_launch (p : Pkt) (desc rec : BitVec 64) (s : State) :
    exec (.launch p desc rec) s = execLaunch p desc rec s := rfl
@[simp] theorem exec_copy (p : Pkt) (desc rec : BitVec 64) (s : State) :
    exec (.copy p desc rec) s = execCopy p desc rec s := rfl
@[simp] theorem exec_signal (p : Pkt) (va val : BitVec 64) (w64 add : Bool) (s : State) :
    exec (.signal p va val w64 add) s = execSignal p va val w64 add s := rfl
@[simp] theorem exec_wait (p : Pkt) (va val : BitVec 64) (w64 : Bool) (cmp : Cmp) (timeout : BitVec 32) (s : State) :
    exec (.wait p va val w64 cmp timeout) s = execWait p va val w64 cmp timeout s := rfl
@[simp] theorem exec_waitSatisfied (q : Nat) (s : State) : exec (.waitSatisfied q) s = execWaitSatisfied q s := rfl
@[simp] theorem exec_waitTimeout (q : Nat) (s : State) : exec (.waitTimeout q) s = execWaitTimeout q s := rfl
@[simp] theorem exec_callib (p : Pkt) (va : BitVec 64) (len : BitVec 32) (s : State) :
    exec (.callib p va len) s = execCallib p va len s := rfl
@[simp] theorem exec_retib (p : Pkt) (s : State) : exec (.retib p) s = execRetib p s := rfl
@[simp] theorem exec_graph (p : Pkt) (base : BitVec 64) (cap count : BitVec 16) (rec : BitVec 64) (s : State) :
    exec (.graph p base cap count rec) s = execGraph p base cap count rec s := rfl
@[simp] theorem exec_fencek (p : Pkt) (s : State) : exec (.fencek p) s = execFencek p s := rfl
@[simp] theorem exec_markk (p : Pkt) (tag : BitVec 32) (s : State) : exec (.markk p tag) s = execMarkk p tag s := rfl
@[simp] theorem exec_graphNodeComplete (q node : Nat) (s : State) :
    exec (.graphNodeComplete q node) s = execGraphNodeComplete q node s := rfl
@[simp] theorem exec_timedNodeOffset (q node : Nat) (s : State) :
    exec (.timedNodeOffset q node) s = execTimedNodeOffset q node s := rfl
@[simp] theorem exec_queuePatienceExpiry (q : Nat) (s : State) :
    exec (.queuePatienceExpiry q) s = execQueuePatienceExpiry q s := rfl
@[simp] theorem exec_irqAgeExpiry (q : Nat) (s : State) : exec (.irqAgeExpiry q) s = execIrqAgeExpiry q s := rfl
@[simp] theorem exec_queueReset (q : Nat) (s : State) : exec (.queueReset q) s = execQueueReset q s := rfl
@[simp] theorem exec_queueResetComplete (q : Nat) (s : State) :
    exec (.queueResetComplete q) s = execQueueResetComplete q s := rfl
@[simp] theorem exec_patternChange (cluster allot : Nat) (s : State) :
    exec (.patternChange cluster allot) s = execPatternChange cluster allot s := rfl
@[simp] theorem exec_splitChange (plot : Nat) (level : BitVec 2) (s : State) :
    exec (.splitChange plot level) s = execSplitChange plot level s := rfl
@[simp] theorem exec_droop (die : Nat) (s : State) : exec (.droop die) s = execDroop die s := rfl
@[simp] theorem exec_droopFloorEnd (die : Nat) (s : State) :
    exec (.droopFloorEnd die) s = execDroopFloorEnd die s := rfl
@[simp] theorem exec_leaseGrant (plot : Nat) (s : State) : exec (.leaseGrant plot) s = execLeaseGrant plot s := rfl
@[simp] theorem exec_leaseDeny (plot : Nat) (reason : BitVec 4) (s : State) :
    exec (.leaseDeny plot reason) s = execLeaseDeny plot reason s := rfl
@[simp] theorem exec_leaseDurExpiry (plot : Nat) (s : State) :
    exec (.leaseDurExpiry plot) s = execLeaseDurExpiry plot s := rfl
@[simp] theorem exec_leaseCapReached (plot : Nat) (s : State) :
    exec (.leaseCapReached plot) s = execLeaseCapReached plot s := rfl
@[simp] theorem exec_supplyLoss (s : State) : exec (.supplyLoss) s = execSupplyLoss s := rfl
@[simp] theorem exec_pfailArrival (plot : Nat) (s : State) :
    exec (.pfailArrival plot) s = execPfailArrival plot s := rfl
@[simp] theorem exec_pfailHoldTimeout (plot : Nat) (s : State) :
    exec (.pfailHoldTimeout plot) s = execPfailHoldTimeout plot s := rfl
@[simp] theorem exec_keepStoreSave (s : State) : exec (.keepStoreSave) s = execKeepStoreSave s := rfl
@[simp] theorem exec_pcSample (tile : Nat) (s : State) : exec (.pcSample tile) s = execPcSample tile s := rfl
@[simp] theorem exec_counterSnapshot (part : Nat) (s : State) :
    exec (.counterSnapshot part) s = execCounterSnapshot part s := rfl
@[simp] theorem exec_linkTraining (link peerMod peerLink flightPs rate : Nat) (s : State) :
    exec (.linkTraining link peerMod peerLink flightPs rate) s = execLinkTraining link peerMod peerLink flightPs rate s := rfl
@[simp] theorem exec_linkLoss (drop : LinkDrop) (s : State) : exec (.linkLoss drop) s = execLinkLoss drop s := rfl
@[simp] theorem exec_moduleStart (run : StartRun) (s : State) :
    exec (.moduleStart run) s = execModuleStart run s := rfl
@[simp] theorem exec_spdmRequest (index : Nat) (s : State) :
    exec (.spdmRequest index) s = execSpdmRequest index s := rfl
@[simp] theorem exec_manifestRead (first : Nat) (s : State) :
    exec (.manifestRead first) s = execManifestRead first s := rfl
@[simp] theorem exec_rangeEntryInstall (ctx im : Nat) (e : BitVec 256) (s : State) :
    exec (.rangeEntryInstall ctx im e) s = execRangeEntryInstall ctx im e s := rfl
@[simp] theorem exec_translationInvalidate (ctx : Nat) (s : State) :
    exec (.translationInvalidate ctx) s = execTranslationInvalidate ctx s := rfl
@[simp] theorem exec_pageMigration (ctx : Nat) (va : BitVec 64) (newPa : Nat) (s : State) :
    exec (.pageMigration ctx va newPa) s = execPageMigration ctx va newPa s := rfl
@[simp] theorem exec_pageMigrationCopyDone (ctx : Nat) (s : State) :
    exec (.pageMigrationCopyDone ctx) s = execPageMigrationCopyDone ctx s := rfl
@[simp] theorem exec_serviceMarkingChange (tile : Nat) (strata : BitVec 4) (s : State) :
    exec (.serviceMarkingChange tile strata) s = execServiceMarkingChange tile strata s := rfl
@[simp] theorem exec_hostCxlMemRead (pa len : Nat) (s : State) :
    exec (.hostCxlMemRead pa len) s = execHostCxlMemRead pa len s := rfl
@[simp] theorem exec_hostCxlMemWrite (pa : Nat) (bytes : List Byte) (s : State) :
    exec (.hostCxlMemWrite pa bytes) s = execHostCxlMemWrite pa bytes s := rfl
@[simp] theorem exec_peerAccessArrival (pa : Nat) (acc : PeerAcc) (s : State) :
    exec (.peerAccessArrival pa acc) s = execPeerAccessArrival pa acc s := rfl
@[simp] theorem exec_registerWrite (r : RegW) (s : State) : exec (.registerWrite r) s = execRegisterWrite r s := rfl
@[simp] theorem exec_staticPortAccess (tile : Nat) (s : State) :
    exec (.staticPortAccess tile) s = execStaticPortAccess tile s := rfl
@[simp] theorem exec_retentionExit (cluster : Nat) (parityOk : Bool) (s : State) :
    exec (.retentionExit cluster parityOk) s = execRetentionExit cluster parityOk s := rfl

end Sys2Proof.Machine
end

