-- ==== Sys2Proof/Laws/Store.lean ====
section
/-! SUPPORT. The laws of stores, of association lists and of memory: a read after a write, and the canonical form. -/
namespace Sys2Proof.Machine

/-! ### Association lists -/

@[simp] theorem aget_aset_self {α : Type} (d : α) (l : List (Nat × α)) (i : Nat) (x : α) :
    aget d (aset l i x) i = x := by
  induction l with
  | nil => simp [aset, aget]
  | cons p r ih =>
    obtain ⟨k, v⟩ := p
    simp only [aset]
    split
    · simp [aget]
    · split
      · simp [aget]
      · simp [aget, *]
theorem aget_aset_other {α : Type} (d : α) (l : List (Nat × α)) (i j : Nat) (x : α) (h : j ≠ i) :
    aget d (aset l i x) j = aget d l j := by
  induction l with
  | nil => simp [aset, aget, h]
  | cons p r ih =>
    obtain ⟨k, v⟩ := p
    simp only [aset]
    split
    · next e => subst e; simp [aget, h]
    · split
      · simp [aget, h]
      · simp only [aget, ih]
theorem aget_aset {α : Type} (d : α) (l : List (Nat × α)) (i j : Nat) (x : α) :
    aget d (aset l i x) j = if j = i then x else aget d l j := by
  split
  · next h => subst h; simp
  · next h => exact aget_aset_other d l i j x h
@[simp] theorem aset_aset {α : Type} (l : List (Nat × α)) (i : Nat) (x y : α) :
    aset (aset l i x) i y = aset l i y := by
  induction l with
  | nil => simp [aset]
  | cons p r ih =>
    obtain ⟨k, v⟩ := p
    simp only [aset]
    split
    · simp [aset]
    · split
      · simp [aset]
      · simp [aset, *]
@[simp] theorem afind_aset_self {α : Type} (l : List (Nat × α)) (i : Nat) (x : α) :
    afind (aset l i x) i = some x := by
  induction l with
  | nil => simp [aset, afind]
  | cons p r ih =>
    obtain ⟨k, v⟩ := p
    simp only [aset]
    split
    · simp [afind]
    · split
      · simp [afind]
      · simp [afind, *]
theorem afind_aset_other {α : Type} (l : List (Nat × α)) (i j : Nat) (x : α) (h : j ≠ i) :
    afind (aset l i x) j = afind l j := by
  induction l with
  | nil => simp [aset, afind, h]
  | cons p r ih =>
    obtain ⟨k, v⟩ := p
    simp only [aset]
    split
    · next e => subst e; simp [afind, h]
    · split
      · simp [afind, h]
      · simp only [afind, ih]
theorem aget_adel_self {α : Type} (d : α) (l : List (Nat × α)) (i : Nat) : aget d (adel l i) i = d := by
  induction l with
  | nil => rfl
  | cons p r ih =>
    obtain ⟨k, v⟩ := p
    simp only [adel, List.filter_cons]
    split
    · next h => simp only [bne_iff_ne, ne_eq] at h; simp [aget, Ne.symm h]; exact ih
    · exact ih
theorem aget_adel_other {α : Type} (d : α) (l : List (Nat × α)) (i j : Nat) (h : j ≠ i) :
    aget d (adel l i) j = aget d l j := by
  induction l with
  | nil => rfl
  | cons p r ih =>
    obtain ⟨k, v⟩ := p
    simp only [adel, List.filter_cons]
    split
    · simp only [aget]; split
      · rfl
      · exact ih
    · next h2 =>
      simp only [bne_iff_ne, ne_eq, Decidable.not_not] at h2
      subst h2
      simp only [aget, h, if_false]
      exact ih

/-! ### Stores -/

@[simp] theorem sget_sset_self {w : Nat} (d : BitVec w) (m : Store w) (i : Nat) (x : BitVec w) :
    sget d (sset d m i x) i = x := by
  unfold sget sset
  split
  · next h => rw [aget_adel_self, h]
  · simp
theorem sget_sset_other {w : Nat} (d : BitVec w) (m : Store w) (i j : Nat) (x : BitVec w) (h : j ≠ i) :
    sget d (sset d m i x) j = sget d m j := by
  unfold sget sset
  split
  · exact aget_adel_other d m i j h
  · exact aget_aset_other d m i j x h
theorem sget_sset {w : Nat} (d : BitVec w) (m : Store w) (i j : Nat) (x : BitVec w) :
    sget d (sset d m i x) j = if j = i then x else sget d m j := by
  split
  · next h => subst h; simp
  · next h => exact sget_sset_other d m i j x h

theorem swfFrom_le {w : Nat} (d : BitVec w) (lo lo' : Nat) (m : Store w) (hle : lo' ≤ lo)
    (h : swfFrom d lo m = true) : swfFrom d lo' m = true := by
  cases m with
  | nil => rfl
  | cons p r =>
    obtain ⟨k, v⟩ := p
    simp only [swfFrom, Bool.and_eq_true, decide_eq_true_eq] at h ⊢
    exact ⟨⟨by omega, h.1.2⟩, h.2⟩
theorem swfFrom_adel {w : Nat} (d : BitVec w) (i lo : Nat) (m : Store w) (h : swfFrom d lo m = true) :
    swfFrom d lo (adel m i) = true := by
  induction m generalizing lo with
  | nil => rfl
  | cons p r ih =>
    obtain ⟨k, v⟩ := p
    simp only [swfFrom, Bool.and_eq_true, decide_eq_true_eq] at h
    simp only [adel, List.filter_cons]
    split
    · simp only [swfFrom, Bool.and_eq_true, decide_eq_true_eq]
      exact ⟨h.1, ih (k + 1) h.2⟩
    · exact swfFrom_le d (k + 1) lo _ (by omega) (ih (k + 1) h.2)
theorem swfFrom_aset {w : Nat} (d : BitVec w) (i lo : Nat) (x : BitVec w) (m : Store w) (hx : x ≠ d) (hi : lo ≤ i)
    (h : swfFrom d lo m = true) : swfFrom d lo (aset m i x) = true := by
  induction m generalizing lo with
  | nil => simp [aset, swfFrom, hx, hi]
  | cons p r ih =>
    obtain ⟨k, v⟩ := p
    simp only [swfFrom, Bool.and_eq_true, decide_eq_true_eq] at h
    simp only [aset]
    split
    · next e => subst e; simp [swfFrom, hx, hi, h.2]
    · next e =>
      split
      · next lt =>
        simp only [swfFrom, Bool.and_eq_true, decide_eq_true_eq, bne_iff_ne, ne_eq]
        exact ⟨⟨hi, hx⟩, ⟨by omega, by simpa using h.1.2⟩, h.2⟩
      · next nlt =>
        simp only [swfFrom, Bool.and_eq_true, decide_eq_true_eq]
        exact ⟨h.1, ih (k + 1) (by omega) h.2⟩
/-- A store keeps its canonical form. -/
theorem swf_sset {w : Nat} (d : BitVec w) (m : Store w) (i : Nat) (x : BitVec w) (h : swf d m = true) :
    swf d (sset d m i x) = true := by
  unfold sset swf
  split
  · exact swfFrom_adel d i 0 m h
  · next hx => exact swfFrom_aset d i 0 x m hx (by omega) h

/-! ### Memory -/

@[simp] theorem Memory.get_set_self (m : List Host.Cell) (a : Nat) (b : Byte) :
    Memory.get (Memory.set m a b) a = b := sget_sset_self _ _ _ _
theorem Memory.get_set_other (m : List Host.Cell) (a c : Nat) (b : Byte) (h : c ≠ a) :
    Memory.get (Memory.set m a b) c = Memory.get m c := sget_sset_other _ _ _ _ _ h
theorem Memory.wf_set (m : List Host.Cell) (a : Nat) (b : Byte) (h : Memory.wf m = true) :
    Memory.wf (Memory.set m a b) = true := swf_sset _ _ _ _ h
/-- A write of bytes keeps the canonical form. -/
theorem Memory.wf_write (m : List Host.Cell) (a : Nat) (bs : List Byte) (h : Memory.wf m = true) :
    Memory.wf (Memory.write m a bs) = true := by
  induction bs generalizing m a with
  | nil => exact h
  | cons b r ih => exact ih _ _ (Memory.wf_set m a b h)
theorem Memory.get_write_below (m : List Host.Cell) (a c : Nat) (bs : List Byte) (h : c < a) :
    Memory.get (Memory.write m a bs) c = Memory.get m c := by
  induction bs generalizing m a with
  | nil => rfl
  | cons b r ih => rw [Memory.write, ih _ _ (by omega), Memory.get_set_other _ _ _ _ (by omega)]
/-- A byte outside a write is left alone. -/
theorem Memory.get_write_outside (m : List Host.Cell) (a c : Nat) (bs : List Byte)
    (h : c < a ∨ a + bs.length ≤ c) : Memory.get (Memory.write m a bs) c = Memory.get m c := by
  induction bs generalizing m a with
  | nil => rfl
  | cons b r ih =>
    rw [Memory.write]
    by_cases hc : c < a
    · rw [Memory.get_write_below _ _ _ _ (by omega), Memory.get_set_other _ _ _ _ (by omega)]
    · simp only [List.length_cons] at h
      rw [ih _ _ (by omega), Memory.get_set_other _ _ _ _ (by omega)]
/-- A byte inside a write reads as written. -/
theorem Memory.get_write_inside (m : List Host.Cell) (a i : Nat) (bs : List Byte) (h : i < bs.length) :
    Memory.get (Memory.write m a bs) (a + i) = bs[i] := by
  induction bs generalizing m a i with
  | nil => simp at h
  | cons b r ih =>
    rw [Memory.write]
    cases i with
    | zero => rw [Nat.add_zero, Memory.get_write_below _ _ _ _ (by omega)]; simp
    | succ j =>
      have := ih (Memory.set m a b) (a + 1) j (by simpa using h)
      rw [show a + (j + 1) = a + 1 + j by omega, this]
      simp
/-- Reading what was written gives it back. -/
theorem Memory.read_write (m : List Host.Cell) (a : Nat) (bs : List Byte) :
    Memory.read (Memory.write m a bs) a bs.length = bs := by
  apply List.ext_getElem
  · simp [Memory.read]
  · intro i h1 h2
    simp only [Memory.read, List.getElem_map, List.getElem_range]
    exact Memory.get_write_inside m a i bs h2

end Sys2Proof.Machine
end

