-- ==== Sys2Proof/Laws/Issue.lean ====
section
/-! SUPPORT. What a step of one operation answers: its effects begun on its own tile, or its trap taken. -/
namespace Sys2Proof.Machine

/-! ### Tiles -/

@[simp] theorem State.tile_setTile_self (s : State) (n : Nat) (t : Tile) : (s.setTile n t).tile n = t := by
  simp [State.setTile, State.tile]
theorem State.tile_setTile_other (s : State) (n m : Nat) (t : Tile) (h : m ≠ n) :
    (s.setTile n t).tile m = s.tile m := by
  simp [State.setTile, State.tile, aget_aset_other _ _ _ _ _ h]
@[simp] theorem State.setTile_setTile (s : State) (n : Nat) (t u : Tile) :
    (s.setTile n t).setTile n u = s.setTile n u := by simp [State.setTile]
@[simp] theorem State.mapTile_setTile (s : State) (n : Nat) (t : Tile) (f : Tile → Tile) :
    (s.setTile n t).mapTile n f = s.setTile n (f t) := by simp [State.mapTile]
@[simp] theorem State.tile_mapTile_self (s : State) (n : Nat) (f : Tile → Tile) :
    (s.mapTile n f).tile n = f (s.tile n) := by simp [State.mapTile]
theorem State.tile_mapTile_other (s : State) (n m : Nat) (f : Tile → Tile) (h : m ≠ n) :
    (s.mapTile n f).tile m = s.tile m := by simp [State.mapTile, State.tile_setTile_other _ _ _ _ h]
@[simp] theorem State.mapTile_mapTile (s : State) (n : Nat) (f g : Tile → Tile) :
    (s.mapTile n f).mapTile n g = s.mapTile n (fun t => g (f t)) := by simp [State.mapTile]

/-! ### Whole steps -/

theorem act_up (f : State → State) (s : State) (h : s.down = false) : act f s = .next (f s) := by simp [act, h]
theorem act_down (f : State → State) (s : State) (h : s.down = true) : act f s = .fault .poweredDown := by
  simp [act, h]

/-! ### Operations of slots -/

theorem settle_ok (i : Issue) (s t : State) (h : s.down = false) (hi : i s = .ok t) :
    settle i s = .next (t.mapTile s.cur.tile Tile.nextSeq) := by simp [settle, act, h, hi]
theorem settle_error (i : Issue) (s : State) (tr : Trap) (h : s.down = false) (hi : i s = .error tr) :
    settle i s = .next (s.takeTrap s.cur.tile tr s.cur.addr s.cur.idx) := by simp [settle, act, h, hi]
theorem settle_onTile_ok (f : Env → Tile → Except Trap Tile) (s : State) (t : Tile) (h : s.down = false)
    (hf : f s.env (s.tile s.cur.tile) = .ok t) :
    settle (onTile f) s = .next (s.setTile s.cur.tile t.nextSeq) := by
  rw [settle_ok _ _ (s.setTile s.cur.tile t) h (by simp [onTile, hf])]
  simp
theorem settle_onTile_error (f : Env → Tile → Except Trap Tile) (s : State) (tr : Trap) (h : s.down = false)
    (hf : f s.env (s.tile s.cur.tile) = .error tr) :
    settle (onTile f) s = .next (s.takeTrap s.cur.tile tr s.cur.addr s.cur.idx) :=
  settle_error _ _ _ h (by simp [onTile, hf])
/-- An operation with one scalar result begins its effect. -/
theorem settle_scalarRes (lat : Nat) (d : BitVec 6) (f : Tile → BitVec 64) (s : State) (h : s.down = false) :
    settle (scalarRes lat d f) s = .next (s.setTile s.cur.tile
      ((s.tile s.cur.tile).push s.env (s.env.now + lat)
        ((s.tile s.cur.tile).wScalar d (f (s.tile s.cur.tile)))).nextSeq) :=
  settle_onTile_ok _ _ _ h rfl
/-- An operation with one predicate result begins its effect. -/
theorem settle_predRes (lat : Nat) (d : BitVec 4) (f : Tile → Bool) (s : State) (h : s.down = false) :
    settle (predRes lat d f) s = .next (s.setTile s.cur.tile
      ((s.tile s.cur.tile).push s.env (s.env.now + lat) (.pred d.toNat (f (s.tile s.cur.tile)))).nextSeq) :=
  settle_onTile_ok _ _ _ h rfl

end Sys2Proof.Machine
end

