-- ==== Sys2Proof/Laws/Memory.lean ====
section
/-! SUPPORT. Every operation that changes memory keeps its canonical form, and memory has it at reset. -/
namespace Sys2Proof.Machine

theorem Memory.wf_reset : Memory.wf State.reset.mem = true := rfl
theorem Safety_inv_reset : Safety.Inv State.reset := rfl

/-- What is listed behind an address stands in order behind it. -/
theorem swfFrom_lower {w : Nat} (d : BitVec w) (lo : Nat) (m : Store w) (h : swfFrom d lo m = true) :
    ∀ p ∈ m, lo ≤ p.1 := by
  induction m generalizing lo with
  | nil => simp
  | cons p r ih =>
    obtain ⟨k, v⟩ := p
    simp only [swfFrom, Bool.and_eq_true, decide_eq_true_eq] at h
    intro q hq
    rcases List.mem_cons.mp hq with rfl | hq
    · exact h.1.1
    · exact Nat.le_trans (Nat.le_succ_of_le h.1.1) (ih (k + 1) h.2 q hq)
/-- A part of a store in canonical form is in canonical form. -/
theorem swfFrom_filter {w : Nat} (d : BitVec w) (lo : Nat) (m : Store w) (f : Nat × BitVec w → Bool)
    (h : swfFrom d lo m = true) : swfFrom d lo (m.filter f) = true := by
  induction m generalizing lo with
  | nil => rfl
  | cons p r ih =>
    obtain ⟨k, v⟩ := p
    simp only [swfFrom, Bool.and_eq_true, decide_eq_true_eq] at h
    simp only [List.filter_cons]
    split
    · simp only [swfFrom, Bool.and_eq_true, decide_eq_true_eq]
      exact ⟨h.1, ih (k + 1) h.2⟩
    · exact swfFrom_le d (k + 1) lo _ (Nat.le_succ_of_le h.1.1) (ih (k + 1) h.2)
theorem Memory.wf_filter (m : List Host.Cell) (f : Nat × Byte → Bool) (h : Memory.wf m = true) :
    Memory.wf (m.filter f) = true := swfFrom_filter _ _ _ _ h
theorem Memory.wf_foldl_set {α : Type} (l : List α) (g : α → Nat) (b : α → Byte) (m : List Host.Cell)
    (h : Memory.wf m = true) : Memory.wf (l.foldl (fun m c => Memory.set m (g c) (b c)) m) = true := by
  induction l generalizing m with
  | nil => exact h
  | cons c r ih => exact ih _ (Memory.wf_set m _ _ h)

/-- Correcting errors changes neither memory nor what any tile holds but its count. -/
@[simp] theorem State.mem_correct (s : State) (f : Nat → Bool) : (s.correct f).mem = s.mem := by
  have fold : ∀ (l : List Nat) (t : State), (l.foldl (fun s w => s.mapTile (errOwner w)
      (fun t => { t with corrections := t.corrections + 1 })) t).mem = t.mem := by
    intro l
    induction l with
    | nil => intro t; rfl
    | cons w r ih => intro t; exact (ih _).trans rfl
  unfold State.correct
  split
  · rfl
  · exact fold _ _

/-- The four ways in which the model changes memory. -/
theorem State.wf_memWrite (s : State) (a : Nat) (b : List Byte) (h : Memory.wf s.mem = true) :
    Memory.wf (s.memWrite a b).mem = true := Memory.wf_write _ _ _ h
theorem State.wf_spadWrite (s : State) (n a : Nat) (b : List Byte) (h : Memory.wf s.mem = true) :
    Memory.wf (s.spadWrite n a b).mem = true := Memory.wf_write _ _ _ h
theorem State.wf_moveBytes (s : State) (old new size : Nat) (h : Memory.wf s.mem = true) :
    Memory.wf (s.moveBytes old new size).mem = true :=
  Memory.wf_foldl_set _ _ _ _ (Memory.wf_filter _ _ (by simpa [State.correctIn] using h))
theorem State.wf_loadSpad (s : State) (n : Nat) (q : Saved) (h : Memory.wf s.mem = true) :
    Memory.wf (s.loadSpad n q).mem = true := Memory.wf_foldl_set _ _ _ _ (Memory.wf_filter _ _ h)

/-- A write of memory reads as its bytes and leaves every other byte alone. -/
theorem State.get_memWrite_outside (s : State) (a x : Nat) (b : List Byte) (h : x < a ∨ a + b.length ≤ x) :
    Memory.get (s.memWrite a b).mem x = Memory.get s.mem x := Memory.get_write_outside _ _ _ _ h
theorem State.get_memWrite_inside (s : State) (a i : Nat) (b : List Byte) (h : i < b.length) :
    Memory.get (s.memWrite a b).mem (a + i) = b[i] := Memory.get_write_inside _ _ _ _ h
theorem State.get_spadWrite_outside (s : State) (n a x : Nat) (b : List Byte)
    (h : x < spadBase n + a ∨ spadBase n + a + b.length ≤ x) :
    Memory.get (s.spadWrite n a b).mem x = Memory.get s.mem x := Memory.get_write_outside _ _ _ _ h
theorem State.get_spadWrite_inside (s : State) (n a i : Nat) (b : List Byte) (h : i < b.length) :
    Memory.get (s.spadWrite n a b).mem (spadBase n + a + i) = b[i] := Memory.get_write_inside _ _ _ _ h

end Sys2Proof.Machine
end

