-- ==== Sys2Proof/Laws/State.lean ====
section
/-! SUPPORT. One lemma for each field under each update of the state: an update leaves the fields alone that it does not
name. -/
namespace Sys2Proof.Machine

/-! ### The module -/

@[simp] theorem State.setTile_model (s : State) (n : Nat) (t : Tile) : (s.setTile n t).model = s.model := rfl
@[simp] theorem State.setTile_plots (s : State) (n : Nat) (t : Tile) : (s.setTile n t).plots = s.plots := rfl
@[simp] theorem State.setTile_mem (s : State) (n : Nat) (t : Tile) : (s.setTile n t).mem = s.mem := rfl
@[simp] theorem State.setTile_errs (s : State) (n : Nat) (t : Tile) : (s.setTile n t).errs = s.errs := rfl
@[simp] theorem State.setTile_soft (s : State) (n : Nat) (t : Tile) : (s.setTile n t).soft = s.soft := rfl
@[simp] theorem State.setTile_ctxs (s : State) (n : Nat) (t : Tile) : (s.setTile n t).ctxs = s.ctxs := rfl
@[simp] theorem State.setTile_clusters (s : State) (n : Nat) (t : Tile) : (s.setTile n t).clusters = s.clusters := rfl
@[simp] theorem State.setTile_tlb (s : State) (n : Nat) (t : Tile) : (s.setTile n t).tlb = s.tlb := rfl
@[simp] theorem State.setTile_walks (s : State) (n : Nat) (t : Tile) : (s.setTile n t).walks = s.walks := rfl
@[simp] theorem State.setTile_queues (s : State) (n : Nat) (t : Tile) : (s.setTile n t).queues = s.queues := rfl
@[simp] theorem State.setTile_turnQ (s : State) (n : Nat) (t : Tile) : (s.setTile n t).turnQ = s.turnQ := rfl
@[simp] theorem State.setTile_msix (s : State) (n : Nat) (t : Tile) : (s.setTile n t).msix = s.msix := rfl
@[simp] theorem State.setTile_rings (s : State) (n : Nat) (t : Tile) : (s.setTile n t).rings = s.rings := rfl
@[simp] theorem State.setTile_parts (s : State) (n : Nat) (t : Tile) : (s.setTile n t).parts = s.parts := rfl
@[simp] theorem State.setTile_links (s : State) (n : Nat) (t : Tile) : (s.setTile n t).links = s.links := rfl
@[simp] theorem State.setTile_boot (s : State) (n : Nat) (t : Tile) : (s.setTile n t).boot = s.boot := rfl
@[simp] theorem State.setTile_keep (s : State) (n : Nat) (t : Tile) : (s.setTile n t).keep = s.keep := rfl
@[simp] theorem State.setTile_pfail (s : State) (n : Nat) (t : Tile) : (s.setTile n t).pfail = s.pfail := rfl
@[simp] theorem State.setTile_down (s : State) (n : Nat) (t : Tile) : (s.setTile n t).down = s.down := rfl
@[simp] theorem State.setTile_powerLimit (s : State) (n : Nat) (t : Tile) : (s.setTile n t).powerLimit = s.powerLimit := rfl
@[simp] theorem State.setTile_droops (s : State) (n : Nat) (t : Tile) : (s.setTile n t).droops = s.droops := rfl
@[simp] theorem State.setTile_hdm (s : State) (n : Nat) (t : Tile) : (s.setTile n t).hdm = s.hdm := rfl
@[simp] theorem State.setTile_inbound (s : State) (n : Nat) (t : Tile) : (s.setTile n t).inbound = s.inbound := rfl
@[simp] theorem State.setTile_peerMem (s : State) (n : Nat) (t : Tile) : (s.setTile n t).peerMem = s.peerMem := rfl
@[simp] theorem State.setTile_peerQ (s : State) (n : Nat) (t : Tile) : (s.setTile n t).peerQ = s.peerQ := rfl
@[simp] theorem State.setTile_peerNext (s : State) (n : Nat) (t : Tile) : (s.setTile n t).peerNext = s.peerNext := rfl
@[simp] theorem State.setTile_places (s : State) (n : Nat) (t : Tile) : (s.setTile n t).places = s.places := rfl
@[simp] theorem State.setTile_group (s : State) (n : Nat) (t : Tile) : (s.setTile n t).group = s.group := rfl
@[simp] theorem State.setTile_nsOff (s : State) (n : Nat) (t : Tile) : (s.setTile n t).nsOff = s.nsOff := rfl
@[simp] theorem State.setTile_bar0 (s : State) (n : Nat) (t : Tile) : (s.setTile n t).bar0 = s.bar0 := rfl
@[simp] theorem State.setTile_manifest (s : State) (n : Nat) (t : Tile) : (s.setTile n t).manifest = s.manifest := rfl
@[simp] theorem State.setTile_answers (s : State) (n : Nat) (t : Tile) : (s.setTile n t).answers = s.answers := rfl
@[simp] theorem State.setTile_mp (s : State) (n : Nat) (t : Tile) : (s.setTile n t).mp = s.mp := rfl
@[simp] theorem State.setTile_pulsed (s : State) (n : Nat) (t : Tile) : (s.setTile n t).pulsed = s.pulsed := rfl
@[simp] theorem State.setTile_sampled (s : State) (n : Nat) (t : Tile) : (s.setTile n t).sampled = s.sampled := rfl
@[simp] theorem State.setTile_counted (s : State) (n : Nat) (t : Tile) : (s.setTile n t).counted = s.counted := rfl
@[simp] theorem State.setTile_plotNo (s : State) (n : Nat) (t : Tile) : (s.setTile n t).plotNo = s.plotNo := rfl
@[simp] theorem State.setTile_agenda (s : State) (n : Nat) (t : Tile) : (s.setTile n t).agenda = s.agenda := rfl
@[simp] theorem State.setTile_cur (s : State) (n : Nat) (t : Tile) : (s.setTile n t).cur = s.cur := rfl
@[simp] theorem State.setTile_freeCtr (s : State) (n : Nat) (t : Tile) : (s.setTile n t).freeCtr = s.freeCtr := rfl

@[simp] theorem State.mapTile_model (s : State) (n : Nat) (f : Tile → Tile) : (s.mapTile n f).model = s.model := rfl
@[simp] theorem State.mapTile_plots (s : State) (n : Nat) (f : Tile → Tile) : (s.mapTile n f).plots = s.plots := rfl
@[simp] theorem State.mapTile_mem (s : State) (n : Nat) (f : Tile → Tile) : (s.mapTile n f).mem = s.mem := rfl
@[simp] theorem State.mapTile_errs (s : State) (n : Nat) (f : Tile → Tile) : (s.mapTile n f).errs = s.errs := rfl
@[simp] theorem State.mapTile_soft (s : State) (n : Nat) (f : Tile → Tile) : (s.mapTile n f).soft = s.soft := rfl
@[simp] theorem State.mapTile_ctxs (s : State) (n : Nat) (f : Tile → Tile) : (s.mapTile n f).ctxs = s.ctxs := rfl
@[simp] theorem State.mapTile_clusters (s : State) (n : Nat) (f : Tile → Tile) : (s.mapTile n f).clusters = s.clusters := rfl
@[simp] theorem State.mapTile_tlb (s : State) (n : Nat) (f : Tile → Tile) : (s.mapTile n f).tlb = s.tlb := rfl
@[simp] theorem State.mapTile_walks (s : State) (n : Nat) (f : Tile → Tile) : (s.mapTile n f).walks = s.walks := rfl
@[simp] theorem State.mapTile_queues (s : State) (n : Nat) (f : Tile → Tile) : (s.mapTile n f).queues = s.queues := rfl
@[simp] theorem State.mapTile_turnQ (s : State) (n : Nat) (f : Tile → Tile) : (s.mapTile n f).turnQ = s.turnQ := rfl
@[simp] theorem State.mapTile_msix (s : State) (n : Nat) (f : Tile → Tile) : (s.mapTile n f).msix = s.msix := rfl
@[simp] theorem State.mapTile_rings (s : State) (n : Nat) (f : Tile → Tile) : (s.mapTile n f).rings = s.rings := rfl
@[simp] theorem State.mapTile_parts (s : State) (n : Nat) (f : Tile → Tile) : (s.mapTile n f).parts = s.parts := rfl
@[simp] theorem State.mapTile_links (s : State) (n : Nat) (f : Tile → Tile) : (s.mapTile n f).links = s.links := rfl
@[simp] theorem State.mapTile_boot (s : State) (n : Nat) (f : Tile → Tile) : (s.mapTile n f).boot = s.boot := rfl
@[simp] theorem State.mapTile_keep (s : State) (n : Nat) (f : Tile → Tile) : (s.mapTile n f).keep = s.keep := rfl
@[simp] theorem State.mapTile_pfail (s : State) (n : Nat) (f : Tile → Tile) : (s.mapTile n f).pfail = s.pfail := rfl
@[simp] theorem State.mapTile_down (s : State) (n : Nat) (f : Tile → Tile) : (s.mapTile n f).down = s.down := rfl
@[simp] theorem State.mapTile_powerLimit (s : State) (n : Nat) (f : Tile → Tile) : (s.mapTile n f).powerLimit = s.powerLimit := rfl
@[simp] theorem State.mapTile_droops (s : State) (n : Nat) (f : Tile → Tile) : (s.mapTile n f).droops = s.droops := rfl
@[simp] theorem State.mapTile_hdm (s : State) (n : Nat) (f : Tile → Tile) : (s.mapTile n f).hdm = s.hdm := rfl
@[simp] theorem State.mapTile_inbound (s : State) (n : Nat) (f : Tile → Tile) : (s.mapTile n f).inbound = s.inbound := rfl
@[simp] theorem State.mapTile_peerMem (s : State) (n : Nat) (f : Tile → Tile) : (s.mapTile n f).peerMem = s.peerMem := rfl
@[simp] theorem State.mapTile_peerQ (s : State) (n : Nat) (f : Tile → Tile) : (s.mapTile n f).peerQ = s.peerQ := rfl
@[simp] theorem State.mapTile_peerNext (s : State) (n : Nat) (f : Tile → Tile) : (s.mapTile n f).peerNext = s.peerNext := rfl
@[simp] theorem State.mapTile_places (s : State) (n : Nat) (f : Tile → Tile) : (s.mapTile n f).places = s.places := rfl
@[simp] theorem State.mapTile_group (s : State) (n : Nat) (f : Tile → Tile) : (s.mapTile n f).group = s.group := rfl
@[simp] theorem State.mapTile_nsOff (s : State) (n : Nat) (f : Tile → Tile) : (s.mapTile n f).nsOff = s.nsOff := rfl
@[simp] theorem State.mapTile_bar0 (s : State) (n : Nat) (f : Tile → Tile) : (s.mapTile n f).bar0 = s.bar0 := rfl
@[simp] theorem State.mapTile_manifest (s : State) (n : Nat) (f : Tile → Tile) : (s.mapTile n f).manifest = s.manifest := rfl
@[simp] theorem State.mapTile_answers (s : State) (n : Nat) (f : Tile → Tile) : (s.mapTile n f).answers = s.answers := rfl
@[simp] theorem State.mapTile_mp (s : State) (n : Nat) (f : Tile → Tile) : (s.mapTile n f).mp = s.mp := rfl
@[simp] theorem State.mapTile_pulsed (s : State) (n : Nat) (f : Tile → Tile) : (s.mapTile n f).pulsed = s.pulsed := rfl
@[simp] theorem State.mapTile_sampled (s : State) (n : Nat) (f : Tile → Tile) : (s.mapTile n f).sampled = s.sampled := rfl
@[simp] theorem State.mapTile_counted (s : State) (n : Nat) (f : Tile → Tile) : (s.mapTile n f).counted = s.counted := rfl
@[simp] theorem State.mapTile_plotNo (s : State) (n : Nat) (f : Tile → Tile) : (s.mapTile n f).plotNo = s.plotNo := rfl
@[simp] theorem State.mapTile_agenda (s : State) (n : Nat) (f : Tile → Tile) : (s.mapTile n f).agenda = s.agenda := rfl
@[simp] theorem State.mapTile_cur (s : State) (n : Nat) (f : Tile → Tile) : (s.mapTile n f).cur = s.cur := rfl
@[simp] theorem State.mapTile_freeCtr (s : State) (n : Nat) (f : Tile → Tile) : (s.mapTile n f).freeCtr = s.freeCtr := rfl

@[simp] theorem State.mapPlot_model (s : State) (k : Nat) (f : Plot → Plot) : (s.mapPlot k f).model = s.model := by unfold State.mapPlot; split <;> rfl
@[simp] theorem State.mapPlot_tiles (s : State) (k : Nat) (f : Plot → Plot) : (s.mapPlot k f).tiles = s.tiles := by unfold State.mapPlot; split <;> rfl
@[simp] theorem State.mapPlot_mem (s : State) (k : Nat) (f : Plot → Plot) : (s.mapPlot k f).mem = s.mem := by unfold State.mapPlot; split <;> rfl
@[simp] theorem State.mapPlot_errs (s : State) (k : Nat) (f : Plot → Plot) : (s.mapPlot k f).errs = s.errs := by unfold State.mapPlot; split <;> rfl
@[simp] theorem State.mapPlot_soft (s : State) (k : Nat) (f : Plot → Plot) : (s.mapPlot k f).soft = s.soft := by unfold State.mapPlot; split <;> rfl
@[simp] theorem State.mapPlot_ctxs (s : State) (k : Nat) (f : Plot → Plot) : (s.mapPlot k f).ctxs = s.ctxs := by unfold State.mapPlot; split <;> rfl
@[simp] theorem State.mapPlot_clusters (s : State) (k : Nat) (f : Plot → Plot) : (s.mapPlot k f).clusters = s.clusters := by unfold State.mapPlot; split <;> rfl
@[simp] theorem State.mapPlot_tlb (s : State) (k : Nat) (f : Plot → Plot) : (s.mapPlot k f).tlb = s.tlb := by unfold State.mapPlot; split <;> rfl
@[simp] theorem State.mapPlot_walks (s : State) (k : Nat) (f : Plot → Plot) : (s.mapPlot k f).walks = s.walks := by unfold State.mapPlot; split <;> rfl
@[simp] theorem State.mapPlot_queues (s : State) (k : Nat) (f : Plot → Plot) : (s.mapPlot k f).queues = s.queues := by unfold State.mapPlot; split <;> rfl
@[simp] theorem State.mapPlot_turnQ (s : State) (k : Nat) (f : Plot → Plot) : (s.mapPlot k f).turnQ = s.turnQ := by unfold State.mapPlot; split <;> rfl
@[simp] theorem State.mapPlot_msix (s : State) (k : Nat) (f : Plot → Plot) : (s.mapPlot k f).msix = s.msix := by unfold State.mapPlot; split <;> rfl
@[simp] theorem State.mapPlot_rings (s : State) (k : Nat) (f : Plot → Plot) : (s.mapPlot k f).rings = s.rings := by unfold State.mapPlot; split <;> rfl
@[simp] theorem State.mapPlot_parts (s : State) (k : Nat) (f : Plot → Plot) : (s.mapPlot k f).parts = s.parts := by unfold State.mapPlot; split <;> rfl
@[simp] theorem State.mapPlot_links (s : State) (k : Nat) (f : Plot → Plot) : (s.mapPlot k f).links = s.links := by unfold State.mapPlot; split <;> rfl
@[simp] theorem State.mapPlot_boot (s : State) (k : Nat) (f : Plot → Plot) : (s.mapPlot k f).boot = s.boot := by unfold State.mapPlot; split <;> rfl
@[simp] theorem State.mapPlot_keep (s : State) (k : Nat) (f : Plot → Plot) : (s.mapPlot k f).keep = s.keep := by unfold State.mapPlot; split <;> rfl
@[simp] theorem State.mapPlot_pfail (s : State) (k : Nat) (f : Plot → Plot) : (s.mapPlot k f).pfail = s.pfail := by unfold State.mapPlot; split <;> rfl
@[simp] theorem State.mapPlot_down (s : State) (k : Nat) (f : Plot → Plot) : (s.mapPlot k f).down = s.down := by unfold State.mapPlot; split <;> rfl
@[simp] theorem State.mapPlot_powerLimit (s : State) (k : Nat) (f : Plot → Plot) : (s.mapPlot k f).powerLimit = s.powerLimit := by unfold State.mapPlot; split <;> rfl
@[simp] theorem State.mapPlot_droops (s : State) (k : Nat) (f : Plot → Plot) : (s.mapPlot k f).droops = s.droops := by unfold State.mapPlot; split <;> rfl
@[simp] theorem State.mapPlot_hdm (s : State) (k : Nat) (f : Plot → Plot) : (s.mapPlot k f).hdm = s.hdm := by unfold State.mapPlot; split <;> rfl
@[simp] theorem State.mapPlot_inbound (s : State) (k : Nat) (f : Plot → Plot) : (s.mapPlot k f).inbound = s.inbound := by unfold State.mapPlot; split <;> rfl
@[simp] theorem State.mapPlot_peerMem (s : State) (k : Nat) (f : Plot → Plot) : (s.mapPlot k f).peerMem = s.peerMem := by unfold State.mapPlot; split <;> rfl
@[simp] theorem State.mapPlot_peerQ (s : State) (k : Nat) (f : Plot → Plot) : (s.mapPlot k f).peerQ = s.peerQ := by unfold State.mapPlot; split <;> rfl
@[simp] theorem State.mapPlot_peerNext (s : State) (k : Nat) (f : Plot → Plot) : (s.mapPlot k f).peerNext = s.peerNext := by unfold State.mapPlot; split <;> rfl
@[simp] theorem State.mapPlot_places (s : State) (k : Nat) (f : Plot → Plot) : (s.mapPlot k f).places = s.places := by unfold State.mapPlot; split <;> rfl
@[simp] theorem State.mapPlot_group (s : State) (k : Nat) (f : Plot → Plot) : (s.mapPlot k f).group = s.group := by unfold State.mapPlot; split <;> rfl
@[simp] theorem State.mapPlot_nsOff (s : State) (k : Nat) (f : Plot → Plot) : (s.mapPlot k f).nsOff = s.nsOff := by unfold State.mapPlot; split <;> rfl
@[simp] theorem State.mapPlot_bar0 (s : State) (k : Nat) (f : Plot → Plot) : (s.mapPlot k f).bar0 = s.bar0 := by unfold State.mapPlot; split <;> rfl
@[simp] theorem State.mapPlot_manifest (s : State) (k : Nat) (f : Plot → Plot) : (s.mapPlot k f).manifest = s.manifest := by unfold State.mapPlot; split <;> rfl
@[simp] theorem State.mapPlot_answers (s : State) (k : Nat) (f : Plot → Plot) : (s.mapPlot k f).answers = s.answers := by unfold State.mapPlot; split <;> rfl
@[simp] theorem State.mapPlot_mp (s : State) (k : Nat) (f : Plot → Plot) : (s.mapPlot k f).mp = s.mp := by unfold State.mapPlot; split <;> rfl
@[simp] theorem State.mapPlot_pulsed (s : State) (k : Nat) (f : Plot → Plot) : (s.mapPlot k f).pulsed = s.pulsed := by unfold State.mapPlot; split <;> rfl
@[simp] theorem State.mapPlot_sampled (s : State) (k : Nat) (f : Plot → Plot) : (s.mapPlot k f).sampled = s.sampled := by unfold State.mapPlot; split <;> rfl
@[simp] theorem State.mapPlot_counted (s : State) (k : Nat) (f : Plot → Plot) : (s.mapPlot k f).counted = s.counted := by unfold State.mapPlot; split <;> rfl
@[simp] theorem State.mapPlot_plotNo (s : State) (k : Nat) (f : Plot → Plot) : (s.mapPlot k f).plotNo = s.plotNo := by unfold State.mapPlot; split <;> rfl
@[simp] theorem State.mapPlot_agenda (s : State) (k : Nat) (f : Plot → Plot) : (s.mapPlot k f).agenda = s.agenda := by unfold State.mapPlot; split <;> rfl
@[simp] theorem State.mapPlot_cur (s : State) (k : Nat) (f : Plot → Plot) : (s.mapPlot k f).cur = s.cur := by unfold State.mapPlot; split <;> rfl
@[simp] theorem State.mapPlot_freeCtr (s : State) (k : Nat) (f : Plot → Plot) : (s.mapPlot k f).freeCtr = s.freeCtr := by unfold State.mapPlot; split <;> rfl

@[simp] theorem State.mapCtx_model (s : State) (c : Nat) (f : Ctx → Ctx) : (s.mapCtx c f).model = s.model := rfl
@[simp] theorem State.mapCtx_tiles (s : State) (c : Nat) (f : Ctx → Ctx) : (s.mapCtx c f).tiles = s.tiles := rfl
@[simp] theorem State.mapCtx_plots (s : State) (c : Nat) (f : Ctx → Ctx) : (s.mapCtx c f).plots = s.plots := rfl
@[simp] theorem State.mapCtx_mem (s : State) (c : Nat) (f : Ctx → Ctx) : (s.mapCtx c f).mem = s.mem := rfl
@[simp] theorem State.mapCtx_errs (s : State) (c : Nat) (f : Ctx → Ctx) : (s.mapCtx c f).errs = s.errs := rfl
@[simp] theorem State.mapCtx_soft (s : State) (c : Nat) (f : Ctx → Ctx) : (s.mapCtx c f).soft = s.soft := rfl
@[simp] theorem State.mapCtx_clusters (s : State) (c : Nat) (f : Ctx → Ctx) : (s.mapCtx c f).clusters = s.clusters := rfl
@[simp] theorem State.mapCtx_tlb (s : State) (c : Nat) (f : Ctx → Ctx) : (s.mapCtx c f).tlb = s.tlb := rfl
@[simp] theorem State.mapCtx_walks (s : State) (c : Nat) (f : Ctx → Ctx) : (s.mapCtx c f).walks = s.walks := rfl
@[simp] theorem State.mapCtx_queues (s : State) (c : Nat) (f : Ctx → Ctx) : (s.mapCtx c f).queues = s.queues := rfl
@[simp] theorem State.mapCtx_turnQ (s : State) (c : Nat) (f : Ctx → Ctx) : (s.mapCtx c f).turnQ = s.turnQ := rfl
@[simp] theorem State.mapCtx_msix (s : State) (c : Nat) (f : Ctx → Ctx) : (s.mapCtx c f).msix = s.msix := rfl
@[simp] theorem State.mapCtx_rings (s : State) (c : Nat) (f : Ctx → Ctx) : (s.mapCtx c f).rings = s.rings := rfl
@[simp] theorem State.mapCtx_parts (s : State) (c : Nat) (f : Ctx → Ctx) : (s.mapCtx c f).parts = s.parts := rfl
@[simp] theorem State.mapCtx_links (s : State) (c : Nat) (f : Ctx → Ctx) : (s.mapCtx c f).links = s.links := rfl
@[simp] theorem State.mapCtx_boot (s : State) (c : Nat) (f : Ctx → Ctx) : (s.mapCtx c f).boot = s.boot := rfl
@[simp] theorem State.mapCtx_keep (s : State) (c : Nat) (f : Ctx → Ctx) : (s.mapCtx c f).keep = s.keep := rfl
@[simp] theorem State.mapCtx_pfail (s : State) (c : Nat) (f : Ctx → Ctx) : (s.mapCtx c f).pfail = s.pfail := rfl
@[simp] theorem State.mapCtx_down (s : State) (c : Nat) (f : Ctx → Ctx) : (s.mapCtx c f).down = s.down := rfl
@[simp] theorem State.mapCtx_powerLimit (s : State) (c : Nat) (f : Ctx → Ctx) : (s.mapCtx c f).powerLimit = s.powerLimit := rfl
@[simp] theorem State.mapCtx_droops (s : State) (c : Nat) (f : Ctx → Ctx) : (s.mapCtx c f).droops = s.droops := rfl
@[simp] theorem State.mapCtx_hdm (s : State) (c : Nat) (f : Ctx → Ctx) : (s.mapCtx c f).hdm = s.hdm := rfl
@[simp] theorem State.mapCtx_inbound (s : State) (c : Nat) (f : Ctx → Ctx) : (s.mapCtx c f).inbound = s.inbound := rfl
@[simp] theorem State.mapCtx_peerMem (s : State) (c : Nat) (f : Ctx → Ctx) : (s.mapCtx c f).peerMem = s.peerMem := rfl
@[simp] theorem State.mapCtx_peerQ (s : State) (c : Nat) (f : Ctx → Ctx) : (s.mapCtx c f).peerQ = s.peerQ := rfl
@[simp] theorem State.mapCtx_peerNext (s : State) (c : Nat) (f : Ctx → Ctx) : (s.mapCtx c f).peerNext = s.peerNext := rfl
@[simp] theorem State.mapCtx_places (s : State) (c : Nat) (f : Ctx → Ctx) : (s.mapCtx c f).places = s.places := rfl
@[simp] theorem State.mapCtx_group (s : State) (c : Nat) (f : Ctx → Ctx) : (s.mapCtx c f).group = s.group := rfl
@[simp] theorem State.mapCtx_nsOff (s : State) (c : Nat) (f : Ctx → Ctx) : (s.mapCtx c f).nsOff = s.nsOff := rfl
@[simp] theorem State.mapCtx_bar0 (s : State) (c : Nat) (f : Ctx → Ctx) : (s.mapCtx c f).bar0 = s.bar0 := rfl
@[simp] theorem State.mapCtx_manifest (s : State) (c : Nat) (f : Ctx → Ctx) : (s.mapCtx c f).manifest = s.manifest := rfl
@[simp] theorem State.mapCtx_answers (s : State) (c : Nat) (f : Ctx → Ctx) : (s.mapCtx c f).answers = s.answers := rfl
@[simp] theorem State.mapCtx_mp (s : State) (c : Nat) (f : Ctx → Ctx) : (s.mapCtx c f).mp = s.mp := rfl
@[simp] theorem State.mapCtx_pulsed (s : State) (c : Nat) (f : Ctx → Ctx) : (s.mapCtx c f).pulsed = s.pulsed := rfl
@[simp] theorem State.mapCtx_sampled (s : State) (c : Nat) (f : Ctx → Ctx) : (s.mapCtx c f).sampled = s.sampled := rfl
@[simp] theorem State.mapCtx_counted (s : State) (c : Nat) (f : Ctx → Ctx) : (s.mapCtx c f).counted = s.counted := rfl
@[simp] theorem State.mapCtx_plotNo (s : State) (c : Nat) (f : Ctx → Ctx) : (s.mapCtx c f).plotNo = s.plotNo := rfl
@[simp] theorem State.mapCtx_agenda (s : State) (c : Nat) (f : Ctx → Ctx) : (s.mapCtx c f).agenda = s.agenda := rfl
@[simp] theorem State.mapCtx_cur (s : State) (c : Nat) (f : Ctx → Ctx) : (s.mapCtx c f).cur = s.cur := rfl
@[simp] theorem State.mapCtx_freeCtr (s : State) (c : Nat) (f : Ctx → Ctx) : (s.mapCtx c f).freeCtr = s.freeCtr := rfl

@[simp] theorem State.mapCluster_model (s : State) (c : Nat) (f : Cluster → Cluster) : (s.mapCluster c f).model = s.model := rfl
@[simp] theorem State.mapCluster_tiles (s : State) (c : Nat) (f : Cluster → Cluster) : (s.mapCluster c f).tiles = s.tiles := rfl
@[simp] theorem State.mapCluster_plots (s : State) (c : Nat) (f : Cluster → Cluster) : (s.mapCluster c f).plots = s.plots := rfl
@[simp] theorem State.mapCluster_mem (s : State) (c : Nat) (f : Cluster → Cluster) : (s.mapCluster c f).mem = s.mem := rfl
@[simp] theorem State.mapCluster_errs (s : State) (c : Nat) (f : Cluster → Cluster) : (s.mapCluster c f).errs = s.errs := rfl
@[simp] theorem State.mapCluster_soft (s : State) (c : Nat) (f : Cluster → Cluster) : (s.mapCluster c f).soft = s.soft := rfl
@[simp] theorem State.mapCluster_ctxs (s : State) (c : Nat) (f : Cluster → Cluster) : (s.mapCluster c f).ctxs = s.ctxs := rfl
@[simp] theorem State.mapCluster_tlb (s : State) (c : Nat) (f : Cluster → Cluster) : (s.mapCluster c f).tlb = s.tlb := rfl
@[simp] theorem State.mapCluster_walks (s : State) (c : Nat) (f : Cluster → Cluster) : (s.mapCluster c f).walks = s.walks := rfl
@[simp] theorem State.mapCluster_queues (s : State) (c : Nat) (f : Cluster → Cluster) : (s.mapCluster c f).queues = s.queues := rfl
@[simp] theorem State.mapCluster_turnQ (s : State) (c : Nat) (f : Cluster → Cluster) : (s.mapCluster c f).turnQ = s.turnQ := rfl
@[simp] theorem State.mapCluster_msix (s : State) (c : Nat) (f : Cluster → Cluster) : (s.mapCluster c f).msix = s.msix := rfl
@[simp] theorem State.mapCluster_rings (s : State) (c : Nat) (f : Cluster → Cluster) : (s.mapCluster c f).rings = s.rings := rfl
@[simp] theorem State.mapCluster_parts (s : State) (c : Nat) (f : Cluster → Cluster) : (s.mapCluster c f).parts = s.parts := rfl
@[simp] theorem State.mapCluster_links (s : State) (c : Nat) (f : Cluster → Cluster) : (s.mapCluster c f).links = s.links := rfl
@[simp] theorem State.mapCluster_boot (s : State) (c : Nat) (f : Cluster → Cluster) : (s.mapCluster c f).boot = s.boot := rfl
@[simp] theorem State.mapCluster_keep (s : State) (c : Nat) (f : Cluster → Cluster) : (s.mapCluster c f).keep = s.keep := rfl
@[simp] theorem State.mapCluster_pfail (s : State) (c : Nat) (f : Cluster → Cluster) : (s.mapCluster c f).pfail = s.pfail := rfl
@[simp] theorem State.mapCluster_down (s : State) (c : Nat) (f : Cluster → Cluster) : (s.mapCluster c f).down = s.down := rfl
@[simp] theorem State.mapCluster_powerLimit (s : State) (c : Nat) (f : Cluster → Cluster) : (s.mapCluster c f).powerLimit = s.powerLimit := rfl
@[simp] theorem State.mapCluster_droops (s : State) (c : Nat) (f : Cluster → Cluster) : (s.mapCluster c f).droops = s.droops := rfl
@[simp] theorem State.mapCluster_hdm (s : State) (c : Nat) (f : Cluster → Cluster) : (s.mapCluster c f).hdm = s.hdm := rfl
@[simp] theorem State.mapCluster_inbound (s : State) (c : Nat) (f : Cluster → Cluster) : (s.mapCluster c f).inbound = s.inbound := rfl
@[simp] theorem State.mapCluster_peerMem (s : State) (c : Nat) (f : Cluster → Cluster) : (s.mapCluster c f).peerMem = s.peerMem := rfl
@[simp] theorem State.mapCluster_peerQ (s : State) (c : Nat) (f : Cluster → Cluster) : (s.mapCluster c f).peerQ = s.peerQ := rfl
@[simp] theorem State.mapCluster_peerNext (s : State) (c : Nat) (f : Cluster → Cluster) : (s.mapCluster c f).peerNext = s.peerNext := rfl
@[simp] theorem State.mapCluster_places (s : State) (c : Nat) (f : Cluster → Cluster) : (s.mapCluster c f).places = s.places := rfl
@[simp] theorem State.mapCluster_group (s : State) (c : Nat) (f : Cluster → Cluster) : (s.mapCluster c f).group = s.group := rfl
@[simp] theorem State.mapCluster_nsOff (s : State) (c : Nat) (f : Cluster → Cluster) : (s.mapCluster c f).nsOff = s.nsOff := rfl
@[simp] theorem State.mapCluster_bar0 (s : State) (c : Nat) (f : Cluster → Cluster) : (s.mapCluster c f).bar0 = s.bar0 := rfl
@[simp] theorem State.mapCluster_manifest (s : State) (c : Nat) (f : Cluster → Cluster) : (s.mapCluster c f).manifest = s.manifest := rfl
@[simp] theorem State.mapCluster_answers (s : State) (c : Nat) (f : Cluster → Cluster) : (s.mapCluster c f).answers = s.answers := rfl
@[simp] theorem State.mapCluster_mp (s : State) (c : Nat) (f : Cluster → Cluster) : (s.mapCluster c f).mp = s.mp := rfl
@[simp] theorem State.mapCluster_pulsed (s : State) (c : Nat) (f : Cluster → Cluster) : (s.mapCluster c f).pulsed = s.pulsed := rfl
@[simp] theorem State.mapCluster_sampled (s : State) (c : Nat) (f : Cluster → Cluster) : (s.mapCluster c f).sampled = s.sampled := rfl
@[simp] theorem State.mapCluster_counted (s : State) (c : Nat) (f : Cluster → Cluster) : (s.mapCluster c f).counted = s.counted := rfl
@[simp] theorem State.mapCluster_plotNo (s : State) (c : Nat) (f : Cluster → Cluster) : (s.mapCluster c f).plotNo = s.plotNo := rfl
@[simp] theorem State.mapCluster_agenda (s : State) (c : Nat) (f : Cluster → Cluster) : (s.mapCluster c f).agenda = s.agenda := rfl
@[simp] theorem State.mapCluster_cur (s : State) (c : Nat) (f : Cluster → Cluster) : (s.mapCluster c f).cur = s.cur := rfl
@[simp] theorem State.mapCluster_freeCtr (s : State) (c : Nat) (f : Cluster → Cluster) : (s.mapCluster c f).freeCtr = s.freeCtr := rfl

@[simp] theorem State.mapQueue_model (s : State) (q : Nat) (f : Queue → Queue) : (s.mapQueue q f).model = s.model := rfl
@[simp] theorem State.mapQueue_tiles (s : State) (q : Nat) (f : Queue → Queue) : (s.mapQueue q f).tiles = s.tiles := rfl
@[simp] theorem State.mapQueue_plots (s : State) (q : Nat) (f : Queue → Queue) : (s.mapQueue q f).plots = s.plots := rfl
@[simp] theorem State.mapQueue_mem (s : State) (q : Nat) (f : Queue → Queue) : (s.mapQueue q f).mem = s.mem := rfl
@[simp] theorem State.mapQueue_errs (s : State) (q : Nat) (f : Queue → Queue) : (s.mapQueue q f).errs = s.errs := rfl
@[simp] theorem State.mapQueue_soft (s : State) (q : Nat) (f : Queue → Queue) : (s.mapQueue q f).soft = s.soft := rfl
@[simp] theorem State.mapQueue_ctxs (s : State) (q : Nat) (f : Queue → Queue) : (s.mapQueue q f).ctxs = s.ctxs := rfl
@[simp] theorem State.mapQueue_clusters (s : State) (q : Nat) (f : Queue → Queue) : (s.mapQueue q f).clusters = s.clusters := rfl
@[simp] theorem State.mapQueue_tlb (s : State) (q : Nat) (f : Queue → Queue) : (s.mapQueue q f).tlb = s.tlb := rfl
@[simp] theorem State.mapQueue_walks (s : State) (q : Nat) (f : Queue → Queue) : (s.mapQueue q f).walks = s.walks := rfl
@[simp] theorem State.mapQueue_turnQ (s : State) (q : Nat) (f : Queue → Queue) : (s.mapQueue q f).turnQ = s.turnQ := rfl
@[simp] theorem State.mapQueue_msix (s : State) (q : Nat) (f : Queue → Queue) : (s.mapQueue q f).msix = s.msix := rfl
@[simp] theorem State.mapQueue_rings (s : State) (q : Nat) (f : Queue → Queue) : (s.mapQueue q f).rings = s.rings := rfl
@[simp] theorem State.mapQueue_parts (s : State) (q : Nat) (f : Queue → Queue) : (s.mapQueue q f).parts = s.parts := rfl
@[simp] theorem State.mapQueue_links (s : State) (q : Nat) (f : Queue → Queue) : (s.mapQueue q f).links = s.links := rfl
@[simp] theorem State.mapQueue_boot (s : State) (q : Nat) (f : Queue → Queue) : (s.mapQueue q f).boot = s.boot := rfl
@[simp] theorem State.mapQueue_keep (s : State) (q : Nat) (f : Queue → Queue) : (s.mapQueue q f).keep = s.keep := rfl
@[simp] theorem State.mapQueue_pfail (s : State) (q : Nat) (f : Queue → Queue) : (s.mapQueue q f).pfail = s.pfail := rfl
@[simp] theorem State.mapQueue_down (s : State) (q : Nat) (f : Queue → Queue) : (s.mapQueue q f).down = s.down := rfl
@[simp] theorem State.mapQueue_powerLimit (s : State) (q : Nat) (f : Queue → Queue) : (s.mapQueue q f).powerLimit = s.powerLimit := rfl
@[simp] theorem State.mapQueue_droops (s : State) (q : Nat) (f : Queue → Queue) : (s.mapQueue q f).droops = s.droops := rfl
@[simp] theorem State.mapQueue_hdm (s : State) (q : Nat) (f : Queue → Queue) : (s.mapQueue q f).hdm = s.hdm := rfl
@[simp] theorem State.mapQueue_inbound (s : State) (q : Nat) (f : Queue → Queue) : (s.mapQueue q f).inbound = s.inbound := rfl
@[simp] theorem State.mapQueue_peerMem (s : State) (q : Nat) (f : Queue → Queue) : (s.mapQueue q f).peerMem = s.peerMem := rfl
@[simp] theorem State.mapQueue_peerQ (s : State) (q : Nat) (f : Queue → Queue) : (s.mapQueue q f).peerQ = s.peerQ := rfl
@[simp] theorem State.mapQueue_peerNext (s : State) (q : Nat) (f : Queue → Queue) : (s.mapQueue q f).peerNext = s.peerNext := rfl
@[simp] theorem State.mapQueue_places (s : State) (q : Nat) (f : Queue → Queue) : (s.mapQueue q f).places = s.places := rfl
@[simp] theorem State.mapQueue_group (s : State) (q : Nat) (f : Queue → Queue) : (s.mapQueue q f).group = s.group := rfl
@[simp] theorem State.mapQueue_nsOff (s : State) (q : Nat) (f : Queue → Queue) : (s.mapQueue q f).nsOff = s.nsOff := rfl
@[simp] theorem State.mapQueue_bar0 (s : State) (q : Nat) (f : Queue → Queue) : (s.mapQueue q f).bar0 = s.bar0 := rfl
@[simp] theorem State.mapQueue_manifest (s : State) (q : Nat) (f : Queue → Queue) : (s.mapQueue q f).manifest = s.manifest := rfl
@[simp] theorem State.mapQueue_answers (s : State) (q : Nat) (f : Queue → Queue) : (s.mapQueue q f).answers = s.answers := rfl
@[simp] theorem State.mapQueue_mp (s : State) (q : Nat) (f : Queue → Queue) : (s.mapQueue q f).mp = s.mp := rfl
@[simp] theorem State.mapQueue_pulsed (s : State) (q : Nat) (f : Queue → Queue) : (s.mapQueue q f).pulsed = s.pulsed := rfl
@[simp] theorem State.mapQueue_sampled (s : State) (q : Nat) (f : Queue → Queue) : (s.mapQueue q f).sampled = s.sampled := rfl
@[simp] theorem State.mapQueue_counted (s : State) (q : Nat) (f : Queue → Queue) : (s.mapQueue q f).counted = s.counted := rfl
@[simp] theorem State.mapQueue_plotNo (s : State) (q : Nat) (f : Queue → Queue) : (s.mapQueue q f).plotNo = s.plotNo := rfl
@[simp] theorem State.mapQueue_agenda (s : State) (q : Nat) (f : Queue → Queue) : (s.mapQueue q f).agenda = s.agenda := rfl
@[simp] theorem State.mapQueue_cur (s : State) (q : Nat) (f : Queue → Queue) : (s.mapQueue q f).cur = s.cur := rfl
@[simp] theorem State.mapQueue_freeCtr (s : State) (q : Nat) (f : Queue → Queue) : (s.mapQueue q f).freeCtr = s.freeCtr := rfl

@[simp] theorem State.memWrite_model (s : State) (a : Nat) (b : List Byte) : (s.memWrite a b).model = s.model := rfl
@[simp] theorem State.memWrite_tiles (s : State) (a : Nat) (b : List Byte) : (s.memWrite a b).tiles = s.tiles := rfl
@[simp] theorem State.memWrite_plots (s : State) (a : Nat) (b : List Byte) : (s.memWrite a b).plots = s.plots := rfl
@[simp] theorem State.memWrite_ctxs (s : State) (a : Nat) (b : List Byte) : (s.memWrite a b).ctxs = s.ctxs := rfl
@[simp] theorem State.memWrite_clusters (s : State) (a : Nat) (b : List Byte) : (s.memWrite a b).clusters = s.clusters := rfl
@[simp] theorem State.memWrite_tlb (s : State) (a : Nat) (b : List Byte) : (s.memWrite a b).tlb = s.tlb := rfl
@[simp] theorem State.memWrite_walks (s : State) (a : Nat) (b : List Byte) : (s.memWrite a b).walks = s.walks := rfl
@[simp] theorem State.memWrite_queues (s : State) (a : Nat) (b : List Byte) : (s.memWrite a b).queues = s.queues := rfl
@[simp] theorem State.memWrite_turnQ (s : State) (a : Nat) (b : List Byte) : (s.memWrite a b).turnQ = s.turnQ := rfl
@[simp] theorem State.memWrite_msix (s : State) (a : Nat) (b : List Byte) : (s.memWrite a b).msix = s.msix := rfl
@[simp] theorem State.memWrite_rings (s : State) (a : Nat) (b : List Byte) : (s.memWrite a b).rings = s.rings := rfl
@[simp] theorem State.memWrite_parts (s : State) (a : Nat) (b : List Byte) : (s.memWrite a b).parts = s.parts := rfl
@[simp] theorem State.memWrite_links (s : State) (a : Nat) (b : List Byte) : (s.memWrite a b).links = s.links := rfl
@[simp] theorem State.memWrite_boot (s : State) (a : Nat) (b : List Byte) : (s.memWrite a b).boot = s.boot := rfl
@[simp] theorem State.memWrite_keep (s : State) (a : Nat) (b : List Byte) : (s.memWrite a b).keep = s.keep := rfl
@[simp] theorem State.memWrite_pfail (s : State) (a : Nat) (b : List Byte) : (s.memWrite a b).pfail = s.pfail := rfl
@[simp] theorem State.memWrite_down (s : State) (a : Nat) (b : List Byte) : (s.memWrite a b).down = s.down := rfl
@[simp] theorem State.memWrite_powerLimit (s : State) (a : Nat) (b : List Byte) : (s.memWrite a b).powerLimit = s.powerLimit := rfl
@[simp] theorem State.memWrite_droops (s : State) (a : Nat) (b : List Byte) : (s.memWrite a b).droops = s.droops := rfl
@[simp] theorem State.memWrite_hdm (s : State) (a : Nat) (b : List Byte) : (s.memWrite a b).hdm = s.hdm := rfl
@[simp] theorem State.memWrite_inbound (s : State) (a : Nat) (b : List Byte) : (s.memWrite a b).inbound = s.inbound := rfl
@[simp] theorem State.memWrite_peerMem (s : State) (a : Nat) (b : List Byte) : (s.memWrite a b).peerMem = s.peerMem := rfl
@[simp] theorem State.memWrite_peerQ (s : State) (a : Nat) (b : List Byte) : (s.memWrite a b).peerQ = s.peerQ := rfl
@[simp] theorem State.memWrite_peerNext (s : State) (a : Nat) (b : List Byte) : (s.memWrite a b).peerNext = s.peerNext := rfl
@[simp] theorem State.memWrite_places (s : State) (a : Nat) (b : List Byte) : (s.memWrite a b).places = s.places := rfl
@[simp] theorem State.memWrite_group (s : State) (a : Nat) (b : List Byte) : (s.memWrite a b).group = s.group := rfl
@[simp] theorem State.memWrite_nsOff (s : State) (a : Nat) (b : List Byte) : (s.memWrite a b).nsOff = s.nsOff := rfl
@[simp] theorem State.memWrite_bar0 (s : State) (a : Nat) (b : List Byte) : (s.memWrite a b).bar0 = s.bar0 := rfl
@[simp] theorem State.memWrite_manifest (s : State) (a : Nat) (b : List Byte) : (s.memWrite a b).manifest = s.manifest := rfl
@[simp] theorem State.memWrite_answers (s : State) (a : Nat) (b : List Byte) : (s.memWrite a b).answers = s.answers := rfl
@[simp] theorem State.memWrite_mp (s : State) (a : Nat) (b : List Byte) : (s.memWrite a b).mp = s.mp := rfl
@[simp] theorem State.memWrite_pulsed (s : State) (a : Nat) (b : List Byte) : (s.memWrite a b).pulsed = s.pulsed := rfl
@[simp] theorem State.memWrite_sampled (s : State) (a : Nat) (b : List Byte) : (s.memWrite a b).sampled = s.sampled := rfl
@[simp] theorem State.memWrite_counted (s : State) (a : Nat) (b : List Byte) : (s.memWrite a b).counted = s.counted := rfl
@[simp] theorem State.memWrite_plotNo (s : State) (a : Nat) (b : List Byte) : (s.memWrite a b).plotNo = s.plotNo := rfl
@[simp] theorem State.memWrite_agenda (s : State) (a : Nat) (b : List Byte) : (s.memWrite a b).agenda = s.agenda := rfl
@[simp] theorem State.memWrite_cur (s : State) (a : Nat) (b : List Byte) : (s.memWrite a b).cur = s.cur := rfl
@[simp] theorem State.memWrite_freeCtr (s : State) (a : Nat) (b : List Byte) : (s.memWrite a b).freeCtr = s.freeCtr := rfl

@[simp] theorem State.charge_model (s : State) (c k : Nat) : (s.charge c k).model = s.model := rfl
@[simp] theorem State.charge_tiles (s : State) (c k : Nat) : (s.charge c k).tiles = s.tiles := rfl
@[simp] theorem State.charge_plots (s : State) (c k : Nat) : (s.charge c k).plots = s.plots := rfl
@[simp] theorem State.charge_mem (s : State) (c k : Nat) : (s.charge c k).mem = s.mem := rfl
@[simp] theorem State.charge_errs (s : State) (c k : Nat) : (s.charge c k).errs = s.errs := rfl
@[simp] theorem State.charge_soft (s : State) (c k : Nat) : (s.charge c k).soft = s.soft := rfl
@[simp] theorem State.charge_clusters (s : State) (c k : Nat) : (s.charge c k).clusters = s.clusters := rfl
@[simp] theorem State.charge_tlb (s : State) (c k : Nat) : (s.charge c k).tlb = s.tlb := rfl
@[simp] theorem State.charge_walks (s : State) (c k : Nat) : (s.charge c k).walks = s.walks := rfl
@[simp] theorem State.charge_queues (s : State) (c k : Nat) : (s.charge c k).queues = s.queues := rfl
@[simp] theorem State.charge_turnQ (s : State) (c k : Nat) : (s.charge c k).turnQ = s.turnQ := rfl
@[simp] theorem State.charge_msix (s : State) (c k : Nat) : (s.charge c k).msix = s.msix := rfl
@[simp] theorem State.charge_rings (s : State) (c k : Nat) : (s.charge c k).rings = s.rings := rfl
@[simp] theorem State.charge_parts (s : State) (c k : Nat) : (s.charge c k).parts = s.parts := rfl
@[simp] theorem State.charge_links (s : State) (c k : Nat) : (s.charge c k).links = s.links := rfl
@[simp] theorem State.charge_boot (s : State) (c k : Nat) : (s.charge c k).boot = s.boot := rfl
@[simp] theorem State.charge_keep (s : State) (c k : Nat) : (s.charge c k).keep = s.keep := rfl
@[simp] theorem State.charge_pfail (s : State) (c k : Nat) : (s.charge c k).pfail = s.pfail := rfl
@[simp] theorem State.charge_down (s : State) (c k : Nat) : (s.charge c k).down = s.down := rfl
@[simp] theorem State.charge_powerLimit (s : State) (c k : Nat) : (s.charge c k).powerLimit = s.powerLimit := rfl
@[simp] theorem State.charge_droops (s : State) (c k : Nat) : (s.charge c k).droops = s.droops := rfl
@[simp] theorem State.charge_hdm (s : State) (c k : Nat) : (s.charge c k).hdm = s.hdm := rfl
@[simp] theorem State.charge_inbound (s : State) (c k : Nat) : (s.charge c k).inbound = s.inbound := rfl
@[simp] theorem State.charge_peerMem (s : State) (c k : Nat) : (s.charge c k).peerMem = s.peerMem := rfl
@[simp] theorem State.charge_peerQ (s : State) (c k : Nat) : (s.charge c k).peerQ = s.peerQ := rfl
@[simp] theorem State.charge_peerNext (s : State) (c k : Nat) : (s.charge c k).peerNext = s.peerNext := rfl
@[simp] theorem State.charge_places (s : State) (c k : Nat) : (s.charge c k).places = s.places := rfl
@[simp] theorem State.charge_group (s : State) (c k : Nat) : (s.charge c k).group = s.group := rfl
@[simp] theorem State.charge_nsOff (s : State) (c k : Nat) : (s.charge c k).nsOff = s.nsOff := rfl
@[simp] theorem State.charge_bar0 (s : State) (c k : Nat) : (s.charge c k).bar0 = s.bar0 := rfl
@[simp] theorem State.charge_manifest (s : State) (c k : Nat) : (s.charge c k).manifest = s.manifest := rfl
@[simp] theorem State.charge_answers (s : State) (c k : Nat) : (s.charge c k).answers = s.answers := rfl
@[simp] theorem State.charge_mp (s : State) (c k : Nat) : (s.charge c k).mp = s.mp := rfl
@[simp] theorem State.charge_pulsed (s : State) (c k : Nat) : (s.charge c k).pulsed = s.pulsed := rfl
@[simp] theorem State.charge_sampled (s : State) (c k : Nat) : (s.charge c k).sampled = s.sampled := rfl
@[simp] theorem State.charge_counted (s : State) (c k : Nat) : (s.charge c k).counted = s.counted := rfl
@[simp] theorem State.charge_plotNo (s : State) (c k : Nat) : (s.charge c k).plotNo = s.plotNo := rfl
@[simp] theorem State.charge_agenda (s : State) (c k : Nat) : (s.charge c k).agenda = s.agenda := rfl
@[simp] theorem State.charge_cur (s : State) (c k : Nat) : (s.charge c k).cur = s.cur := rfl
@[simp] theorem State.charge_freeCtr (s : State) (c k : Nat) : (s.charge c k).freeCtr = s.freeCtr := rfl

@[simp] theorem State.countEvent_model (s : State) (p c k : Nat) : (s.countEvent p c k).model = s.model := by unfold State.countEvent; split <;> rfl
@[simp] theorem State.countEvent_tiles (s : State) (p c k : Nat) : (s.countEvent p c k).tiles = s.tiles := by unfold State.countEvent; split <;> rfl
@[simp] theorem State.countEvent_plots (s : State) (p c k : Nat) : (s.countEvent p c k).plots = s.plots := by unfold State.countEvent; split <;> rfl
@[simp] theorem State.countEvent_mem (s : State) (p c k : Nat) : (s.countEvent p c k).mem = s.mem := by unfold State.countEvent; split <;> rfl
@[simp] theorem State.countEvent_errs (s : State) (p c k : Nat) : (s.countEvent p c k).errs = s.errs := by unfold State.countEvent; split <;> rfl
@[simp] theorem State.countEvent_soft (s : State) (p c k : Nat) : (s.countEvent p c k).soft = s.soft := by unfold State.countEvent; split <;> rfl
@[simp] theorem State.countEvent_ctxs (s : State) (p c k : Nat) : (s.countEvent p c k).ctxs = s.ctxs := by unfold State.countEvent; split <;> rfl
@[simp] theorem State.countEvent_clusters (s : State) (p c k : Nat) : (s.countEvent p c k).clusters = s.clusters := by unfold State.countEvent; split <;> rfl
@[simp] theorem State.countEvent_tlb (s : State) (p c k : Nat) : (s.countEvent p c k).tlb = s.tlb := by unfold State.countEvent; split <;> rfl
@[simp] theorem State.countEvent_walks (s : State) (p c k : Nat) : (s.countEvent p c k).walks = s.walks := by unfold State.countEvent; split <;> rfl
@[simp] theorem State.countEvent_queues (s : State) (p c k : Nat) : (s.countEvent p c k).queues = s.queues := by unfold State.countEvent; split <;> rfl
@[simp] theorem State.countEvent_turnQ (s : State) (p c k : Nat) : (s.countEvent p c k).turnQ = s.turnQ := by unfold State.countEvent; split <;> rfl
@[simp] theorem State.countEvent_msix (s : State) (p c k : Nat) : (s.countEvent p c k).msix = s.msix := by unfold State.countEvent; split <;> rfl
@[simp] theorem State.countEvent_rings (s : State) (p c k : Nat) : (s.countEvent p c k).rings = s.rings := by unfold State.countEvent; split <;> rfl
@[simp] theorem State.countEvent_links (s : State) (p c k : Nat) : (s.countEvent p c k).links = s.links := by unfold State.countEvent; split <;> rfl
@[simp] theorem State.countEvent_boot (s : State) (p c k : Nat) : (s.countEvent p c k).boot = s.boot := by unfold State.countEvent; split <;> rfl
@[simp] theorem State.countEvent_keep (s : State) (p c k : Nat) : (s.countEvent p c k).keep = s.keep := by unfold State.countEvent; split <;> rfl
@[simp] theorem State.countEvent_pfail (s : State) (p c k : Nat) : (s.countEvent p c k).pfail = s.pfail := by unfold State.countEvent; split <;> rfl
@[simp] theorem State.countEvent_down (s : State) (p c k : Nat) : (s.countEvent p c k).down = s.down := by unfold State.countEvent; split <;> rfl
@[simp] theorem State.countEvent_powerLimit (s : State) (p c k : Nat) : (s.countEvent p c k).powerLimit = s.powerLimit := by unfold State.countEvent; split <;> rfl
@[simp] theorem State.countEvent_droops (s : State) (p c k : Nat) : (s.countEvent p c k).droops = s.droops := by unfold State.countEvent; split <;> rfl
@[simp] theorem State.countEvent_hdm (s : State) (p c k : Nat) : (s.countEvent p c k).hdm = s.hdm := by unfold State.countEvent; split <;> rfl
@[simp] theorem State.countEvent_inbound (s : State) (p c k : Nat) : (s.countEvent p c k).inbound = s.inbound := by unfold State.countEvent; split <;> rfl
@[simp] theorem State.countEvent_peerMem (s : State) (p c k : Nat) : (s.countEvent p c k).peerMem = s.peerMem := by unfold State.countEvent; split <;> rfl
@[simp] theorem State.countEvent_peerQ (s : State) (p c k : Nat) : (s.countEvent p c k).peerQ = s.peerQ := by unfold State.countEvent; split <;> rfl
@[simp] theorem State.countEvent_peerNext (s : State) (p c k : Nat) : (s.countEvent p c k).peerNext = s.peerNext := by unfold State.countEvent; split <;> rfl
@[simp] theorem State.countEvent_places (s : State) (p c k : Nat) : (s.countEvent p c k).places = s.places := by unfold State.countEvent; split <;> rfl
@[simp] theorem State.countEvent_group (s : State) (p c k : Nat) : (s.countEvent p c k).group = s.group := by unfold State.countEvent; split <;> rfl
@[simp] theorem State.countEvent_nsOff (s : State) (p c k : Nat) : (s.countEvent p c k).nsOff = s.nsOff := by unfold State.countEvent; split <;> rfl
@[simp] theorem State.countEvent_bar0 (s : State) (p c k : Nat) : (s.countEvent p c k).bar0 = s.bar0 := by unfold State.countEvent; split <;> rfl
@[simp] theorem State.countEvent_manifest (s : State) (p c k : Nat) : (s.countEvent p c k).manifest = s.manifest := by unfold State.countEvent; split <;> rfl
@[simp] theorem State.countEvent_answers (s : State) (p c k : Nat) : (s.countEvent p c k).answers = s.answers := by unfold State.countEvent; split <;> rfl
@[simp] theorem State.countEvent_mp (s : State) (p c k : Nat) : (s.countEvent p c k).mp = s.mp := by unfold State.countEvent; split <;> rfl
@[simp] theorem State.countEvent_pulsed (s : State) (p c k : Nat) : (s.countEvent p c k).pulsed = s.pulsed := by unfold State.countEvent; split <;> rfl
@[simp] theorem State.countEvent_sampled (s : State) (p c k : Nat) : (s.countEvent p c k).sampled = s.sampled := by unfold State.countEvent; split <;> rfl
@[simp] theorem State.countEvent_counted (s : State) (p c k : Nat) : (s.countEvent p c k).counted = s.counted := by unfold State.countEvent; split <;> rfl
@[simp] theorem State.countEvent_plotNo (s : State) (p c k : Nat) : (s.countEvent p c k).plotNo = s.plotNo := by unfold State.countEvent; split <;> rfl
@[simp] theorem State.countEvent_agenda (s : State) (p c k : Nat) : (s.countEvent p c k).agenda = s.agenda := by unfold State.countEvent; split <;> rfl
@[simp] theorem State.countEvent_cur (s : State) (p c k : Nat) : (s.countEvent p c k).cur = s.cur := by unfold State.countEvent; split <;> rfl
@[simp] theorem State.countEvent_freeCtr (s : State) (p c k : Nat) : (s.countEvent p c k).freeCtr = s.freeCtr := by unfold State.countEvent; split <;> rfl

@[simp] theorem State.countTile_model (s : State) (n c k : Nat) : (s.countTile n c k).model = s.model := by unfold State.countTile; split <;> simp
@[simp] theorem State.countTile_tiles (s : State) (n c k : Nat) : (s.countTile n c k).tiles = s.tiles := by unfold State.countTile; split <;> simp
@[simp] theorem State.countTile_plots (s : State) (n c k : Nat) : (s.countTile n c k).plots = s.plots := by unfold State.countTile; split <;> simp
@[simp] theorem State.countTile_mem (s : State) (n c k : Nat) : (s.countTile n c k).mem = s.mem := by unfold State.countTile; split <;> simp
@[simp] theorem State.countTile_errs (s : State) (n c k : Nat) : (s.countTile n c k).errs = s.errs := by unfold State.countTile; split <;> simp
@[simp] theorem State.countTile_soft (s : State) (n c k : Nat) : (s.countTile n c k).soft = s.soft := by unfold State.countTile; split <;> simp
@[simp] theorem State.countTile_ctxs (s : State) (n c k : Nat) : (s.countTile n c k).ctxs = s.ctxs := by unfold State.countTile; split <;> simp
@[simp] theorem State.countTile_clusters (s : State) (n c k : Nat) : (s.countTile n c k).clusters = s.clusters := by unfold State.countTile; split <;> simp
@[simp] theorem State.countTile_tlb (s : State) (n c k : Nat) : (s.countTile n c k).tlb = s.tlb := by unfold State.countTile; split <;> simp
@[simp] theorem State.countTile_walks (s : State) (n c k : Nat) : (s.countTile n c k).walks = s.walks := by unfold State.countTile; split <;> simp
@[simp] theorem State.countTile_queues (s : State) (n c k : Nat) : (s.countTile n c k).queues = s.queues := by unfold State.countTile; split <;> simp
@[simp] theorem State.countTile_turnQ (s : State) (n c k : Nat) : (s.countTile n c k).turnQ = s.turnQ := by unfold State.countTile; split <;> simp
@[simp] theorem State.countTile_msix (s : State) (n c k : Nat) : (s.countTile n c k).msix = s.msix := by unfold State.countTile; split <;> simp
@[simp] theorem State.countTile_rings (s : State) (n c k : Nat) : (s.countTile n c k).rings = s.rings := by unfold State.countTile; split <;> simp
@[simp] theorem State.countTile_links (s : State) (n c k : Nat) : (s.countTile n c k).links = s.links := by unfold State.countTile; split <;> simp
@[simp] theorem State.countTile_boot (s : State) (n c k : Nat) : (s.countTile n c k).boot = s.boot := by unfold State.countTile; split <;> simp
@[simp] theorem State.countTile_keep (s : State) (n c k : Nat) : (s.countTile n c k).keep = s.keep := by unfold State.countTile; split <;> simp
@[simp] theorem State.countTile_pfail (s : State) (n c k : Nat) : (s.countTile n c k).pfail = s.pfail := by unfold State.countTile; split <;> simp
@[simp] theorem State.countTile_down (s : State) (n c k : Nat) : (s.countTile n c k).down = s.down := by unfold State.countTile; split <;> simp
@[simp] theorem State.countTile_powerLimit (s : State) (n c k : Nat) : (s.countTile n c k).powerLimit = s.powerLimit := by unfold State.countTile; split <;> simp
@[simp] theorem State.countTile_droops (s : State) (n c k : Nat) : (s.countTile n c k).droops = s.droops := by unfold State.countTile; split <;> simp
@[simp] theorem State.countTile_hdm (s : State) (n c k : Nat) : (s.countTile n c k).hdm = s.hdm := by unfold State.countTile; split <;> simp
@[simp] theorem State.countTile_inbound (s : State) (n c k : Nat) : (s.countTile n c k).inbound = s.inbound := by unfold State.countTile; split <;> simp
@[simp] theorem State.countTile_peerMem (s : State) (n c k : Nat) : (s.countTile n c k).peerMem = s.peerMem := by unfold State.countTile; split <;> simp
@[simp] theorem State.countTile_peerQ (s : State) (n c k : Nat) : (s.countTile n c k).peerQ = s.peerQ := by unfold State.countTile; split <;> simp
@[simp] theorem State.countTile_peerNext (s : State) (n c k : Nat) : (s.countTile n c k).peerNext = s.peerNext := by unfold State.countTile; split <;> simp
@[simp] theorem State.countTile_places (s : State) (n c k : Nat) : (s.countTile n c k).places = s.places := by unfold State.countTile; split <;> simp
@[simp] theorem State.countTile_group (s : State) (n c k : Nat) : (s.countTile n c k).group = s.group := by unfold State.countTile; split <;> simp
@[simp] theorem State.countTile_nsOff (s : State) (n c k : Nat) : (s.countTile n c k).nsOff = s.nsOff := by unfold State.countTile; split <;> simp
@[simp] theorem State.countTile_bar0 (s : State) (n c k : Nat) : (s.countTile n c k).bar0 = s.bar0 := by unfold State.countTile; split <;> simp
@[simp] theorem State.countTile_manifest (s : State) (n c k : Nat) : (s.countTile n c k).manifest = s.manifest := by unfold State.countTile; split <;> simp
@[simp] theorem State.countTile_answers (s : State) (n c k : Nat) : (s.countTile n c k).answers = s.answers := by unfold State.countTile; split <;> simp
@[simp] theorem State.countTile_mp (s : State) (n c k : Nat) : (s.countTile n c k).mp = s.mp := by unfold State.countTile; split <;> simp
@[simp] theorem State.countTile_pulsed (s : State) (n c k : Nat) : (s.countTile n c k).pulsed = s.pulsed := by unfold State.countTile; split <;> simp
@[simp] theorem State.countTile_sampled (s : State) (n c k : Nat) : (s.countTile n c k).sampled = s.sampled := by unfold State.countTile; split <;> simp
@[simp] theorem State.countTile_counted (s : State) (n c k : Nat) : (s.countTile n c k).counted = s.counted := by unfold State.countTile; split <;> simp
@[simp] theorem State.countTile_plotNo (s : State) (n c k : Nat) : (s.countTile n c k).plotNo = s.plotNo := by unfold State.countTile; split <;> simp
@[simp] theorem State.countTile_agenda (s : State) (n c k : Nat) : (s.countTile n c k).agenda = s.agenda := by unfold State.countTile; split <;> simp
@[simp] theorem State.countTile_cur (s : State) (n c k : Nat) : (s.countTile n c k).cur = s.cur := by unfold State.countTile; split <;> simp
@[simp] theorem State.countTile_freeCtr (s : State) (n c k : Nat) : (s.countTile n c k).freeCtr = s.freeCtr := by unfold State.countTile; split <;> simp

/-! ### A tile -/

@[simp] theorem Tile.nextSeq_regs (t : Tile) : (t.nextSeq).regs = t.regs := rfl
@[simp] theorem Tile.nextSeq_trap (t : Tile) : (t.nextSeq).trap = t.trap := rfl
@[simp] theorem Tile.nextSeq_seq (t : Tile) : (t.nextSeq).seq = t.seq := rfl
@[simp] theorem Tile.nextSeq_vault (t : Tile) : (t.nextSeq).vault = t.vault := rfl
@[simp] theorem Tile.nextSeq_mx (t : Tile) : (t.nextSeq).mx = t.mx := rfl
@[simp] theorem Tile.nextSeq_tags (t : Tile) : (t.nextSeq).tags = t.tags := rfl
@[simp] theorem Tile.nextSeq_wins (t : Tile) : (t.nextSeq).wins = t.wins := rfl
@[simp] theorem Tile.nextSeq_ports (t : Tile) : (t.nextSeq).ports = t.ports := rfl
@[simp] theorem Tile.nextSeq_bankQ (t : Tile) : (t.nextSeq).bankQ = t.bankQ := rfl
@[simp] theorem Tile.nextSeq_dynUse (t : Tile) : (t.nextSeq).dynUse = t.dynUse := rfl
@[simp] theorem Tile.nextSeq_bars (t : Tile) : (t.nextSeq).bars = t.bars := rfl
@[simp] theorem Tile.nextSeq_pend (t : Tile) : (t.nextSeq).pend = t.pend := rfl
@[simp] theorem Tile.nextSeq_landedAt (t : Tile) : (t.nextSeq).landedAt = t.landedAt := rfl
@[simp] theorem Tile.nextSeq_dyn (t : Tile) : (t.nextSeq).dyn = t.dyn := rfl
@[simp] theorem Tile.nextSeq_dynNo (t : Tile) : (t.nextSeq).dynNo = t.dynNo := rfl
@[simp] theorem Tile.nextSeq_fences (t : Tile) : (t.nextSeq).fences = t.fences := rfl
@[simp] theorem Tile.nextSeq_inbox (t : Tile) : (t.nextSeq).inbox = t.inbox := rfl
@[simp] theorem Tile.nextSeq_shcpy (t : Tile) : (t.nextSeq).shcpy = t.shcpy := rfl
@[simp] theorem Tile.nextSeq_saveSeq (t : Tile) : (t.nextSeq).saveSeq = t.saveSeq := rfl
@[simp] theorem Tile.nextSeq_corrections (t : Tile) : (t.nextSeq).corrections = t.corrections := rfl
@[simp] theorem Tile.nextSeq_softLog (t : Tile) : (t.nextSeq).softLog = t.softLog := rfl
@[simp] theorem Tile.nextSeq_plot (t : Tile) : (t.nextSeq).plot = t.plot := rfl
@[simp] theorem Tile.nextSeq_lx (t : Tile) : (t.nextSeq).lx = t.lx := rfl
@[simp] theorem Tile.nextSeq_ly (t : Tile) : (t.nextSeq).ly = t.ly := rfl
@[simp] theorem Tile.nextSeq_vbanks (t : Tile) : (t.nextSeq).vbanks = t.vbanks := rfl
@[simp] theorem Tile.nextSeq_withheld (t : Tile) : (t.nextSeq).withheld = t.withheld := rfl
@[simp] theorem Tile.nextSeq_bad (t : Tile) : (t.nextSeq).bad = t.bad := rfl
@[simp] theorem Tile.nextSeq_soft (t : Tile) : (t.nextSeq).soft = t.soft := rfl
@[simp] theorem Tile.nextSeq_turn (t : Tile) : (t.nextSeq).turn = t.turn := rfl
@[simp] theorem Tile.nextSeq_polled (t : Tile) : (t.nextSeq).polled = t.polled := rfl
@[simp] theorem Tile.nextSeq_marks (t : Tile) : (t.nextSeq).marks = t.marks := rfl
@[simp] theorem Tile.nextSeq_shown (t : Tile) : (t.nextSeq).shown = t.shown := rfl

@[simp] theorem Tile.push_regs (e : Env) (u : Nat) (a : Act) (t : Tile) : (t.push e u a).regs = t.regs := rfl
@[simp] theorem Tile.push_trap (e : Env) (u : Nat) (a : Act) (t : Tile) : (t.push e u a).trap = t.trap := rfl
@[simp] theorem Tile.push_seq (e : Env) (u : Nat) (a : Act) (t : Tile) : (t.push e u a).seq = t.seq := rfl
@[simp] theorem Tile.push_vault (e : Env) (u : Nat) (a : Act) (t : Tile) : (t.push e u a).vault = t.vault := rfl
@[simp] theorem Tile.push_mx (e : Env) (u : Nat) (a : Act) (t : Tile) : (t.push e u a).mx = t.mx := rfl
@[simp] theorem Tile.push_tags (e : Env) (u : Nat) (a : Act) (t : Tile) : (t.push e u a).tags = t.tags := rfl
@[simp] theorem Tile.push_wins (e : Env) (u : Nat) (a : Act) (t : Tile) : (t.push e u a).wins = t.wins := rfl
@[simp] theorem Tile.push_ports (e : Env) (u : Nat) (a : Act) (t : Tile) : (t.push e u a).ports = t.ports := rfl
@[simp] theorem Tile.push_bankQ (e : Env) (u : Nat) (a : Act) (t : Tile) : (t.push e u a).bankQ = t.bankQ := rfl
@[simp] theorem Tile.push_dynUse (e : Env) (u : Nat) (a : Act) (t : Tile) : (t.push e u a).dynUse = t.dynUse := rfl
@[simp] theorem Tile.push_bars (e : Env) (u : Nat) (a : Act) (t : Tile) : (t.push e u a).bars = t.bars := rfl
@[simp] theorem Tile.push_seqNo (e : Env) (u : Nat) (a : Act) (t : Tile) : (t.push e u a).seqNo = t.seqNo := rfl
@[simp] theorem Tile.push_landedAt (e : Env) (u : Nat) (a : Act) (t : Tile) : (t.push e u a).landedAt = t.landedAt := rfl
@[simp] theorem Tile.push_dyn (e : Env) (u : Nat) (a : Act) (t : Tile) : (t.push e u a).dyn = t.dyn := rfl
@[simp] theorem Tile.push_dynNo (e : Env) (u : Nat) (a : Act) (t : Tile) : (t.push e u a).dynNo = t.dynNo := rfl
@[simp] theorem Tile.push_fences (e : Env) (u : Nat) (a : Act) (t : Tile) : (t.push e u a).fences = t.fences := rfl
@[simp] theorem Tile.push_inbox (e : Env) (u : Nat) (a : Act) (t : Tile) : (t.push e u a).inbox = t.inbox := rfl
@[simp] theorem Tile.push_shcpy (e : Env) (u : Nat) (a : Act) (t : Tile) : (t.push e u a).shcpy = t.shcpy := rfl
@[simp] theorem Tile.push_saveSeq (e : Env) (u : Nat) (a : Act) (t : Tile) : (t.push e u a).saveSeq = t.saveSeq := rfl
@[simp] theorem Tile.push_corrections (e : Env) (u : Nat) (a : Act) (t : Tile) : (t.push e u a).corrections = t.corrections := rfl
@[simp] theorem Tile.push_softLog (e : Env) (u : Nat) (a : Act) (t : Tile) : (t.push e u a).softLog = t.softLog := rfl
@[simp] theorem Tile.push_plot (e : Env) (u : Nat) (a : Act) (t : Tile) : (t.push e u a).plot = t.plot := rfl
@[simp] theorem Tile.push_lx (e : Env) (u : Nat) (a : Act) (t : Tile) : (t.push e u a).lx = t.lx := rfl
@[simp] theorem Tile.push_ly (e : Env) (u : Nat) (a : Act) (t : Tile) : (t.push e u a).ly = t.ly := rfl
@[simp] theorem Tile.push_vbanks (e : Env) (u : Nat) (a : Act) (t : Tile) : (t.push e u a).vbanks = t.vbanks := rfl
@[simp] theorem Tile.push_withheld (e : Env) (u : Nat) (a : Act) (t : Tile) : (t.push e u a).withheld = t.withheld := rfl
@[simp] theorem Tile.push_bad (e : Env) (u : Nat) (a : Act) (t : Tile) : (t.push e u a).bad = t.bad := rfl
@[simp] theorem Tile.push_soft (e : Env) (u : Nat) (a : Act) (t : Tile) : (t.push e u a).soft = t.soft := rfl
@[simp] theorem Tile.push_turn (e : Env) (u : Nat) (a : Act) (t : Tile) : (t.push e u a).turn = t.turn := rfl
@[simp] theorem Tile.push_polled (e : Env) (u : Nat) (a : Act) (t : Tile) : (t.push e u a).polled = t.polled := rfl
@[simp] theorem Tile.push_marks (e : Env) (u : Nat) (a : Act) (t : Tile) : (t.push e u a).marks = t.marks := rfl
@[simp] theorem Tile.push_shown (e : Env) (u : Nat) (a : Act) (t : Tile) : (t.push e u a).shown = t.shown := rfl

@[simp] theorem Tile.mapRegs_trap (t : Tile) (f : Regs → Regs) : (t.mapRegs f).trap = t.trap := rfl
@[simp] theorem Tile.mapRegs_seq (t : Tile) (f : Regs → Regs) : (t.mapRegs f).seq = t.seq := rfl
@[simp] theorem Tile.mapRegs_vault (t : Tile) (f : Regs → Regs) : (t.mapRegs f).vault = t.vault := rfl
@[simp] theorem Tile.mapRegs_mx (t : Tile) (f : Regs → Regs) : (t.mapRegs f).mx = t.mx := rfl
@[simp] theorem Tile.mapRegs_tags (t : Tile) (f : Regs → Regs) : (t.mapRegs f).tags = t.tags := rfl
@[simp] theorem Tile.mapRegs_wins (t : Tile) (f : Regs → Regs) : (t.mapRegs f).wins = t.wins := rfl
@[simp] theorem Tile.mapRegs_ports (t : Tile) (f : Regs → Regs) : (t.mapRegs f).ports = t.ports := rfl
@[simp] theorem Tile.mapRegs_bankQ (t : Tile) (f : Regs → Regs) : (t.mapRegs f).bankQ = t.bankQ := rfl
@[simp] theorem Tile.mapRegs_dynUse (t : Tile) (f : Regs → Regs) : (t.mapRegs f).dynUse = t.dynUse := rfl
@[simp] theorem Tile.mapRegs_bars (t : Tile) (f : Regs → Regs) : (t.mapRegs f).bars = t.bars := rfl
@[simp] theorem Tile.mapRegs_pend (t : Tile) (f : Regs → Regs) : (t.mapRegs f).pend = t.pend := rfl
@[simp] theorem Tile.mapRegs_seqNo (t : Tile) (f : Regs → Regs) : (t.mapRegs f).seqNo = t.seqNo := rfl
@[simp] theorem Tile.mapRegs_landedAt (t : Tile) (f : Regs → Regs) : (t.mapRegs f).landedAt = t.landedAt := rfl
@[simp] theorem Tile.mapRegs_dyn (t : Tile) (f : Regs → Regs) : (t.mapRegs f).dyn = t.dyn := rfl
@[simp] theorem Tile.mapRegs_dynNo (t : Tile) (f : Regs → Regs) : (t.mapRegs f).dynNo = t.dynNo := rfl
@[simp] theorem Tile.mapRegs_fences (t : Tile) (f : Regs → Regs) : (t.mapRegs f).fences = t.fences := rfl
@[simp] theorem Tile.mapRegs_inbox (t : Tile) (f : Regs → Regs) : (t.mapRegs f).inbox = t.inbox := rfl
@[simp] theorem Tile.mapRegs_shcpy (t : Tile) (f : Regs → Regs) : (t.mapRegs f).shcpy = t.shcpy := rfl
@[simp] theorem Tile.mapRegs_saveSeq (t : Tile) (f : Regs → Regs) : (t.mapRegs f).saveSeq = t.saveSeq := rfl
@[simp] theorem Tile.mapRegs_corrections (t : Tile) (f : Regs → Regs) : (t.mapRegs f).corrections = t.corrections := rfl
@[simp] theorem Tile.mapRegs_softLog (t : Tile) (f : Regs → Regs) : (t.mapRegs f).softLog = t.softLog := rfl
@[simp] theorem Tile.mapRegs_plot (t : Tile) (f : Regs → Regs) : (t.mapRegs f).plot = t.plot := rfl
@[simp] theorem Tile.mapRegs_lx (t : Tile) (f : Regs → Regs) : (t.mapRegs f).lx = t.lx := rfl
@[simp] theorem Tile.mapRegs_ly (t : Tile) (f : Regs → Regs) : (t.mapRegs f).ly = t.ly := rfl
@[simp] theorem Tile.mapRegs_vbanks (t : Tile) (f : Regs → Regs) : (t.mapRegs f).vbanks = t.vbanks := rfl
@[simp] theorem Tile.mapRegs_withheld (t : Tile) (f : Regs → Regs) : (t.mapRegs f).withheld = t.withheld := rfl
@[simp] theorem Tile.mapRegs_bad (t : Tile) (f : Regs → Regs) : (t.mapRegs f).bad = t.bad := rfl
@[simp] theorem Tile.mapRegs_soft (t : Tile) (f : Regs → Regs) : (t.mapRegs f).soft = t.soft := rfl
@[simp] theorem Tile.mapRegs_turn (t : Tile) (f : Regs → Regs) : (t.mapRegs f).turn = t.turn := rfl
@[simp] theorem Tile.mapRegs_polled (t : Tile) (f : Regs → Regs) : (t.mapRegs f).polled = t.polled := rfl
@[simp] theorem Tile.mapRegs_marks (t : Tile) (f : Regs → Regs) : (t.mapRegs f).marks = t.marks := rfl
@[simp] theorem Tile.mapRegs_shown (t : Tile) (f : Regs → Regs) : (t.mapRegs f).shown = t.shown := rfl

@[simp] theorem Tile.mapSeq_regs (t : Tile) (f : Seq → Seq) : (t.mapSeq f).regs = t.regs := rfl
@[simp] theorem Tile.mapSeq_trap (t : Tile) (f : Seq → Seq) : (t.mapSeq f).trap = t.trap := rfl
@[simp] theorem Tile.mapSeq_vault (t : Tile) (f : Seq → Seq) : (t.mapSeq f).vault = t.vault := rfl
@[simp] theorem Tile.mapSeq_mx (t : Tile) (f : Seq → Seq) : (t.mapSeq f).mx = t.mx := rfl
@[simp] theorem Tile.mapSeq_tags (t : Tile) (f : Seq → Seq) : (t.mapSeq f).tags = t.tags := rfl
@[simp] theorem Tile.mapSeq_wins (t : Tile) (f : Seq → Seq) : (t.mapSeq f).wins = t.wins := rfl
@[simp] theorem Tile.mapSeq_ports (t : Tile) (f : Seq → Seq) : (t.mapSeq f).ports = t.ports := rfl
@[simp] theorem Tile.mapSeq_bankQ (t : Tile) (f : Seq → Seq) : (t.mapSeq f).bankQ = t.bankQ := rfl
@[simp] theorem Tile.mapSeq_dynUse (t : Tile) (f : Seq → Seq) : (t.mapSeq f).dynUse = t.dynUse := rfl
@[simp] theorem Tile.mapSeq_bars (t : Tile) (f : Seq → Seq) : (t.mapSeq f).bars = t.bars := rfl
@[simp] theorem Tile.mapSeq_pend (t : Tile) (f : Seq → Seq) : (t.mapSeq f).pend = t.pend := rfl
@[simp] theorem Tile.mapSeq_seqNo (t : Tile) (f : Seq → Seq) : (t.mapSeq f).seqNo = t.seqNo := rfl
@[simp] theorem Tile.mapSeq_landedAt (t : Tile) (f : Seq → Seq) : (t.mapSeq f).landedAt = t.landedAt := rfl
@[simp] theorem Tile.mapSeq_dyn (t : Tile) (f : Seq → Seq) : (t.mapSeq f).dyn = t.dyn := rfl
@[simp] theorem Tile.mapSeq_dynNo (t : Tile) (f : Seq → Seq) : (t.mapSeq f).dynNo = t.dynNo := rfl
@[simp] theorem Tile.mapSeq_fences (t : Tile) (f : Seq → Seq) : (t.mapSeq f).fences = t.fences := rfl
@[simp] theorem Tile.mapSeq_inbox (t : Tile) (f : Seq → Seq) : (t.mapSeq f).inbox = t.inbox := rfl
@[simp] theorem Tile.mapSeq_shcpy (t : Tile) (f : Seq → Seq) : (t.mapSeq f).shcpy = t.shcpy := rfl
@[simp] theorem Tile.mapSeq_saveSeq (t : Tile) (f : Seq → Seq) : (t.mapSeq f).saveSeq = t.saveSeq := rfl
@[simp] theorem Tile.mapSeq_corrections (t : Tile) (f : Seq → Seq) : (t.mapSeq f).corrections = t.corrections := rfl
@[simp] theorem Tile.mapSeq_softLog (t : Tile) (f : Seq → Seq) : (t.mapSeq f).softLog = t.softLog := rfl
@[simp] theorem Tile.mapSeq_plot (t : Tile) (f : Seq → Seq) : (t.mapSeq f).plot = t.plot := rfl
@[simp] theorem Tile.mapSeq_lx (t : Tile) (f : Seq → Seq) : (t.mapSeq f).lx = t.lx := rfl
@[simp] theorem Tile.mapSeq_ly (t : Tile) (f : Seq → Seq) : (t.mapSeq f).ly = t.ly := rfl
@[simp] theorem Tile.mapSeq_vbanks (t : Tile) (f : Seq → Seq) : (t.mapSeq f).vbanks = t.vbanks := rfl
@[simp] theorem Tile.mapSeq_withheld (t : Tile) (f : Seq → Seq) : (t.mapSeq f).withheld = t.withheld := rfl
@[simp] theorem Tile.mapSeq_bad (t : Tile) (f : Seq → Seq) : (t.mapSeq f).bad = t.bad := rfl
@[simp] theorem Tile.mapSeq_soft (t : Tile) (f : Seq → Seq) : (t.mapSeq f).soft = t.soft := rfl
@[simp] theorem Tile.mapSeq_turn (t : Tile) (f : Seq → Seq) : (t.mapSeq f).turn = t.turn := rfl
@[simp] theorem Tile.mapSeq_polled (t : Tile) (f : Seq → Seq) : (t.mapSeq f).polled = t.polled := rfl
@[simp] theorem Tile.mapSeq_marks (t : Tile) (f : Seq → Seq) : (t.mapSeq f).marks = t.marks := rfl
@[simp] theorem Tile.mapSeq_shown (t : Tile) (f : Seq → Seq) : (t.mapSeq f).shown = t.shown := rfl

@[simp] theorem Tile.setBar_regs (t : Tile) (b : Nat) (r : Bar) : (t.setBar b r).regs = t.regs := rfl
@[simp] theorem Tile.setBar_trap (t : Tile) (b : Nat) (r : Bar) : (t.setBar b r).trap = t.trap := rfl
@[simp] theorem Tile.setBar_seq (t : Tile) (b : Nat) (r : Bar) : (t.setBar b r).seq = t.seq := rfl
@[simp] theorem Tile.setBar_vault (t : Tile) (b : Nat) (r : Bar) : (t.setBar b r).vault = t.vault := rfl
@[simp] theorem Tile.setBar_mx (t : Tile) (b : Nat) (r : Bar) : (t.setBar b r).mx = t.mx := rfl
@[simp] theorem Tile.setBar_tags (t : Tile) (b : Nat) (r : Bar) : (t.setBar b r).tags = t.tags := rfl
@[simp] theorem Tile.setBar_wins (t : Tile) (b : Nat) (r : Bar) : (t.setBar b r).wins = t.wins := rfl
@[simp] theorem Tile.setBar_ports (t : Tile) (b : Nat) (r : Bar) : (t.setBar b r).ports = t.ports := rfl
@[simp] theorem Tile.setBar_bankQ (t : Tile) (b : Nat) (r : Bar) : (t.setBar b r).bankQ = t.bankQ := rfl
@[simp] theorem Tile.setBar_dynUse (t : Tile) (b : Nat) (r : Bar) : (t.setBar b r).dynUse = t.dynUse := rfl
@[simp] theorem Tile.setBar_pend (t : Tile) (b : Nat) (r : Bar) : (t.setBar b r).pend = t.pend := rfl
@[simp] theorem Tile.setBar_seqNo (t : Tile) (b : Nat) (r : Bar) : (t.setBar b r).seqNo = t.seqNo := rfl
@[simp] theorem Tile.setBar_landedAt (t : Tile) (b : Nat) (r : Bar) : (t.setBar b r).landedAt = t.landedAt := rfl
@[simp] theorem Tile.setBar_dyn (t : Tile) (b : Nat) (r : Bar) : (t.setBar b r).dyn = t.dyn := rfl
@[simp] theorem Tile.setBar_dynNo (t : Tile) (b : Nat) (r : Bar) : (t.setBar b r).dynNo = t.dynNo := rfl
@[simp] theorem Tile.setBar_fences (t : Tile) (b : Nat) (r : Bar) : (t.setBar b r).fences = t.fences := rfl
@[simp] theorem Tile.setBar_inbox (t : Tile) (b : Nat) (r : Bar) : (t.setBar b r).inbox = t.inbox := rfl
@[simp] theorem Tile.setBar_shcpy (t : Tile) (b : Nat) (r : Bar) : (t.setBar b r).shcpy = t.shcpy := rfl
@[simp] theorem Tile.setBar_saveSeq (t : Tile) (b : Nat) (r : Bar) : (t.setBar b r).saveSeq = t.saveSeq := rfl
@[simp] theorem Tile.setBar_corrections (t : Tile) (b : Nat) (r : Bar) : (t.setBar b r).corrections = t.corrections := rfl
@[simp] theorem Tile.setBar_softLog (t : Tile) (b : Nat) (r : Bar) : (t.setBar b r).softLog = t.softLog := rfl
@[simp] theorem Tile.setBar_plot (t : Tile) (b : Nat) (r : Bar) : (t.setBar b r).plot = t.plot := rfl
@[simp] theorem Tile.setBar_lx (t : Tile) (b : Nat) (r : Bar) : (t.setBar b r).lx = t.lx := rfl
@[simp] theorem Tile.setBar_ly (t : Tile) (b : Nat) (r : Bar) : (t.setBar b r).ly = t.ly := rfl
@[simp] theorem Tile.setBar_vbanks (t : Tile) (b : Nat) (r : Bar) : (t.setBar b r).vbanks = t.vbanks := rfl
@[simp] theorem Tile.setBar_withheld (t : Tile) (b : Nat) (r : Bar) : (t.setBar b r).withheld = t.withheld := rfl
@[simp] theorem Tile.setBar_bad (t : Tile) (b : Nat) (r : Bar) : (t.setBar b r).bad = t.bad := rfl
@[simp] theorem Tile.setBar_soft (t : Tile) (b : Nat) (r : Bar) : (t.setBar b r).soft = t.soft := rfl
@[simp] theorem Tile.setBar_turn (t : Tile) (b : Nat) (r : Bar) : (t.setBar b r).turn = t.turn := rfl
@[simp] theorem Tile.setBar_polled (t : Tile) (b : Nat) (r : Bar) : (t.setBar b r).polled = t.polled := rfl
@[simp] theorem Tile.setBar_marks (t : Tile) (b : Nat) (r : Bar) : (t.setBar b r).marks = t.marks := rfl
@[simp] theorem Tile.setBar_shown (t : Tile) (b : Nat) (r : Bar) : (t.setBar b r).shown = t.shown := rfl

@[simp] theorem Tile.addBoundary_regs (k : Nat) (tr : Trap) (a : Option Nat) (t : Tile) : (t.addBoundary k tr a).regs = t.regs := rfl
@[simp] theorem Tile.addBoundary_seq (k : Nat) (tr : Trap) (a : Option Nat) (t : Tile) : (t.addBoundary k tr a).seq = t.seq := rfl
@[simp] theorem Tile.addBoundary_vault (k : Nat) (tr : Trap) (a : Option Nat) (t : Tile) : (t.addBoundary k tr a).vault = t.vault := rfl
@[simp] theorem Tile.addBoundary_mx (k : Nat) (tr : Trap) (a : Option Nat) (t : Tile) : (t.addBoundary k tr a).mx = t.mx := rfl
@[simp] theorem Tile.addBoundary_tags (k : Nat) (tr : Trap) (a : Option Nat) (t : Tile) : (t.addBoundary k tr a).tags = t.tags := rfl
@[simp] theorem Tile.addBoundary_wins (k : Nat) (tr : Trap) (a : Option Nat) (t : Tile) : (t.addBoundary k tr a).wins = t.wins := rfl
@[simp] theorem Tile.addBoundary_ports (k : Nat) (tr : Trap) (a : Option Nat) (t : Tile) : (t.addBoundary k tr a).ports = t.ports := rfl
@[simp] theorem Tile.addBoundary_bankQ (k : Nat) (tr : Trap) (a : Option Nat) (t : Tile) : (t.addBoundary k tr a).bankQ = t.bankQ := rfl
@[simp] theorem Tile.addBoundary_dynUse (k : Nat) (tr : Trap) (a : Option Nat) (t : Tile) : (t.addBoundary k tr a).dynUse = t.dynUse := rfl
@[simp] theorem Tile.addBoundary_bars (k : Nat) (tr : Trap) (a : Option Nat) (t : Tile) : (t.addBoundary k tr a).bars = t.bars := rfl
@[simp] theorem Tile.addBoundary_pend (k : Nat) (tr : Trap) (a : Option Nat) (t : Tile) : (t.addBoundary k tr a).pend = t.pend := rfl
@[simp] theorem Tile.addBoundary_seqNo (k : Nat) (tr : Trap) (a : Option Nat) (t : Tile) : (t.addBoundary k tr a).seqNo = t.seqNo := rfl
@[simp] theorem Tile.addBoundary_landedAt (k : Nat) (tr : Trap) (a : Option Nat) (t : Tile) : (t.addBoundary k tr a).landedAt = t.landedAt := rfl
@[simp] theorem Tile.addBoundary_dyn (k : Nat) (tr : Trap) (a : Option Nat) (t : Tile) : (t.addBoundary k tr a).dyn = t.dyn := rfl
@[simp] theorem Tile.addBoundary_dynNo (k : Nat) (tr : Trap) (a : Option Nat) (t : Tile) : (t.addBoundary k tr a).dynNo = t.dynNo := rfl
@[simp] theorem Tile.addBoundary_fences (k : Nat) (tr : Trap) (a : Option Nat) (t : Tile) : (t.addBoundary k tr a).fences = t.fences := rfl
@[simp] theorem Tile.addBoundary_inbox (k : Nat) (tr : Trap) (a : Option Nat) (t : Tile) : (t.addBoundary k tr a).inbox = t.inbox := rfl
@[simp] theorem Tile.addBoundary_shcpy (k : Nat) (tr : Trap) (a : Option Nat) (t : Tile) : (t.addBoundary k tr a).shcpy = t.shcpy := rfl
@[simp] theorem Tile.addBoundary_saveSeq (k : Nat) (tr : Trap) (a : Option Nat) (t : Tile) : (t.addBoundary k tr a).saveSeq = t.saveSeq := rfl
@[simp] theorem Tile.addBoundary_corrections (k : Nat) (tr : Trap) (a : Option Nat) (t : Tile) : (t.addBoundary k tr a).corrections = t.corrections := rfl
@[simp] theorem Tile.addBoundary_softLog (k : Nat) (tr : Trap) (a : Option Nat) (t : Tile) : (t.addBoundary k tr a).softLog = t.softLog := rfl
@[simp] theorem Tile.addBoundary_plot (k : Nat) (tr : Trap) (a : Option Nat) (t : Tile) : (t.addBoundary k tr a).plot = t.plot := rfl
@[simp] theorem Tile.addBoundary_lx (k : Nat) (tr : Trap) (a : Option Nat) (t : Tile) : (t.addBoundary k tr a).lx = t.lx := rfl
@[simp] theorem Tile.addBoundary_ly (k : Nat) (tr : Trap) (a : Option Nat) (t : Tile) : (t.addBoundary k tr a).ly = t.ly := rfl
@[simp] theorem Tile.addBoundary_vbanks (k : Nat) (tr : Trap) (a : Option Nat) (t : Tile) : (t.addBoundary k tr a).vbanks = t.vbanks := rfl
@[simp] theorem Tile.addBoundary_withheld (k : Nat) (tr : Trap) (a : Option Nat) (t : Tile) : (t.addBoundary k tr a).withheld = t.withheld := rfl
@[simp] theorem Tile.addBoundary_bad (k : Nat) (tr : Trap) (a : Option Nat) (t : Tile) : (t.addBoundary k tr a).bad = t.bad := rfl
@[simp] theorem Tile.addBoundary_soft (k : Nat) (tr : Trap) (a : Option Nat) (t : Tile) : (t.addBoundary k tr a).soft = t.soft := rfl
@[simp] theorem Tile.addBoundary_turn (k : Nat) (tr : Trap) (a : Option Nat) (t : Tile) : (t.addBoundary k tr a).turn = t.turn := rfl
@[simp] theorem Tile.addBoundary_polled (k : Nat) (tr : Trap) (a : Option Nat) (t : Tile) : (t.addBoundary k tr a).polled = t.polled := rfl
@[simp] theorem Tile.addBoundary_marks (k : Nat) (tr : Trap) (a : Option Nat) (t : Tile) : (t.addBoundary k tr a).marks = t.marks := rfl
@[simp] theorem Tile.addBoundary_shown (k : Nat) (tr : Trap) (a : Option Nat) (t : Tile) : (t.addBoundary k tr a).shown = t.shown := rfl

@[simp] theorem Tile.returnTrap_regs (t : Tile) : (t.returnTrap).regs = t.regs := rfl
@[simp] theorem Tile.returnTrap_vault (t : Tile) : (t.returnTrap).vault = t.vault := rfl
@[simp] theorem Tile.returnTrap_mx (t : Tile) : (t.returnTrap).mx = t.mx := rfl
@[simp] theorem Tile.returnTrap_tags (t : Tile) : (t.returnTrap).tags = t.tags := rfl
@[simp] theorem Tile.returnTrap_wins (t : Tile) : (t.returnTrap).wins = t.wins := rfl
@[simp] theorem Tile.returnTrap_ports (t : Tile) : (t.returnTrap).ports = t.ports := rfl
@[simp] theorem Tile.returnTrap_bankQ (t : Tile) : (t.returnTrap).bankQ = t.bankQ := rfl
@[simp] theorem Tile.returnTrap_dynUse (t : Tile) : (t.returnTrap).dynUse = t.dynUse := rfl
@[simp] theorem Tile.returnTrap_bars (t : Tile) : (t.returnTrap).bars = t.bars := rfl
@[simp] theorem Tile.returnTrap_pend (t : Tile) : (t.returnTrap).pend = t.pend := rfl
@[simp] theorem Tile.returnTrap_seqNo (t : Tile) : (t.returnTrap).seqNo = t.seqNo := rfl
@[simp] theorem Tile.returnTrap_landedAt (t : Tile) : (t.returnTrap).landedAt = t.landedAt := rfl
@[simp] theorem Tile.returnTrap_dyn (t : Tile) : (t.returnTrap).dyn = t.dyn := rfl
@[simp] theorem Tile.returnTrap_dynNo (t : Tile) : (t.returnTrap).dynNo = t.dynNo := rfl
@[simp] theorem Tile.returnTrap_fences (t : Tile) : (t.returnTrap).fences = t.fences := rfl
@[simp] theorem Tile.returnTrap_inbox (t : Tile) : (t.returnTrap).inbox = t.inbox := rfl
@[simp] theorem Tile.returnTrap_shcpy (t : Tile) : (t.returnTrap).shcpy = t.shcpy := rfl
@[simp] theorem Tile.returnTrap_saveSeq (t : Tile) : (t.returnTrap).saveSeq = t.saveSeq := rfl
@[simp] theorem Tile.returnTrap_corrections (t : Tile) : (t.returnTrap).corrections = t.corrections := rfl
@[simp] theorem Tile.returnTrap_softLog (t : Tile) : (t.returnTrap).softLog = t.softLog := rfl
@[simp] theorem Tile.returnTrap_plot (t : Tile) : (t.returnTrap).plot = t.plot := rfl
@[simp] theorem Tile.returnTrap_lx (t : Tile) : (t.returnTrap).lx = t.lx := rfl
@[simp] theorem Tile.returnTrap_ly (t : Tile) : (t.returnTrap).ly = t.ly := rfl
@[simp] theorem Tile.returnTrap_vbanks (t : Tile) : (t.returnTrap).vbanks = t.vbanks := rfl
@[simp] theorem Tile.returnTrap_withheld (t : Tile) : (t.returnTrap).withheld = t.withheld := rfl
@[simp] theorem Tile.returnTrap_bad (t : Tile) : (t.returnTrap).bad = t.bad := rfl
@[simp] theorem Tile.returnTrap_soft (t : Tile) : (t.returnTrap).soft = t.soft := rfl
@[simp] theorem Tile.returnTrap_turn (t : Tile) : (t.returnTrap).turn = t.turn := rfl
@[simp] theorem Tile.returnTrap_polled (t : Tile) : (t.returnTrap).polled = t.polled := rfl
@[simp] theorem Tile.returnTrap_marks (t : Tile) : (t.returnTrap).marks = t.marks := rfl
@[simp] theorem Tile.returnTrap_shown (t : Tile) : (t.returnTrap).shown = t.shown := rfl

/-- The entry into the monitor changes the trap registers, the sequencer, sb47, the vault's records, the reserved
ports and the turn. -/
theorem Tile.enterMonitor_parts (t : Tile) (tr : Trap) (pc rep now : Nat) : ∃ a b c d,
    t.enterMonitor tr pc rep now = { t with trap := a, seq := b, bars := c, vault := d, ports := [], turn := true } :=
  ⟨_, _, _, _, rfl⟩
@[simp] theorem Tile.enterMonitor_regs (t : Tile) (tr : Trap) (pc rep now : Nat) : (t.enterMonitor tr pc rep now).regs = t.regs := by
  obtain ⟨a, b, c, d, h⟩ := Tile.enterMonitor_parts t tr pc rep now; rw [h]
@[simp] theorem Tile.enterMonitor_mx (t : Tile) (tr : Trap) (pc rep now : Nat) : (t.enterMonitor tr pc rep now).mx = t.mx := by
  obtain ⟨a, b, c, d, h⟩ := Tile.enterMonitor_parts t tr pc rep now; rw [h]
@[simp] theorem Tile.enterMonitor_tags (t : Tile) (tr : Trap) (pc rep now : Nat) : (t.enterMonitor tr pc rep now).tags = t.tags := by
  obtain ⟨a, b, c, d, h⟩ := Tile.enterMonitor_parts t tr pc rep now; rw [h]
@[simp] theorem Tile.enterMonitor_wins (t : Tile) (tr : Trap) (pc rep now : Nat) : (t.enterMonitor tr pc rep now).wins = t.wins := by
  obtain ⟨a, b, c, d, h⟩ := Tile.enterMonitor_parts t tr pc rep now; rw [h]
@[simp] theorem Tile.enterMonitor_bankQ (t : Tile) (tr : Trap) (pc rep now : Nat) : (t.enterMonitor tr pc rep now).bankQ = t.bankQ := by
  obtain ⟨a, b, c, d, h⟩ := Tile.enterMonitor_parts t tr pc rep now; rw [h]
@[simp] theorem Tile.enterMonitor_dynUse (t : Tile) (tr : Trap) (pc rep now : Nat) : (t.enterMonitor tr pc rep now).dynUse = t.dynUse := by
  obtain ⟨a, b, c, d, h⟩ := Tile.enterMonitor_parts t tr pc rep now; rw [h]
@[simp] theorem Tile.enterMonitor_pend (t : Tile) (tr : Trap) (pc rep now : Nat) : (t.enterMonitor tr pc rep now).pend = t.pend := by
  obtain ⟨a, b, c, d, h⟩ := Tile.enterMonitor_parts t tr pc rep now; rw [h]
@[simp] theorem Tile.enterMonitor_seqNo (t : Tile) (tr : Trap) (pc rep now : Nat) : (t.enterMonitor tr pc rep now).seqNo = t.seqNo := by
  obtain ⟨a, b, c, d, h⟩ := Tile.enterMonitor_parts t tr pc rep now; rw [h]
@[simp] theorem Tile.enterMonitor_landedAt (t : Tile) (tr : Trap) (pc rep now : Nat) : (t.enterMonitor tr pc rep now).landedAt = t.landedAt := by
  obtain ⟨a, b, c, d, h⟩ := Tile.enterMonitor_parts t tr pc rep now; rw [h]
@[simp] theorem Tile.enterMonitor_dyn (t : Tile) (tr : Trap) (pc rep now : Nat) : (t.enterMonitor tr pc rep now).dyn = t.dyn := by
  obtain ⟨a, b, c, d, h⟩ := Tile.enterMonitor_parts t tr pc rep now; rw [h]
@[simp] theorem Tile.enterMonitor_dynNo (t : Tile) (tr : Trap) (pc rep now : Nat) : (t.enterMonitor tr pc rep now).dynNo = t.dynNo := by
  obtain ⟨a, b, c, d, h⟩ := Tile.enterMonitor_parts t tr pc rep now; rw [h]
@[simp] theorem Tile.enterMonitor_fences (t : Tile) (tr : Trap) (pc rep now : Nat) : (t.enterMonitor tr pc rep now).fences = t.fences := by
  obtain ⟨a, b, c, d, h⟩ := Tile.enterMonitor_parts t tr pc rep now; rw [h]
@[simp] theorem Tile.enterMonitor_inbox (t : Tile) (tr : Trap) (pc rep now : Nat) : (t.enterMonitor tr pc rep now).inbox = t.inbox := by
  obtain ⟨a, b, c, d, h⟩ := Tile.enterMonitor_parts t tr pc rep now; rw [h]
@[simp] theorem Tile.enterMonitor_shcpy (t : Tile) (tr : Trap) (pc rep now : Nat) : (t.enterMonitor tr pc rep now).shcpy = t.shcpy := by
  obtain ⟨a, b, c, d, h⟩ := Tile.enterMonitor_parts t tr pc rep now; rw [h]
@[simp] theorem Tile.enterMonitor_saveSeq (t : Tile) (tr : Trap) (pc rep now : Nat) : (t.enterMonitor tr pc rep now).saveSeq = t.saveSeq := by
  obtain ⟨a, b, c, d, h⟩ := Tile.enterMonitor_parts t tr pc rep now; rw [h]
@[simp] theorem Tile.enterMonitor_corrections (t : Tile) (tr : Trap) (pc rep now : Nat) : (t.enterMonitor tr pc rep now).corrections = t.corrections := by
  obtain ⟨a, b, c, d, h⟩ := Tile.enterMonitor_parts t tr pc rep now; rw [h]
@[simp] theorem Tile.enterMonitor_softLog (t : Tile) (tr : Trap) (pc rep now : Nat) : (t.enterMonitor tr pc rep now).softLog = t.softLog := by
  obtain ⟨a, b, c, d, h⟩ := Tile.enterMonitor_parts t tr pc rep now; rw [h]
@[simp] theorem Tile.enterMonitor_plot (t : Tile) (tr : Trap) (pc rep now : Nat) : (t.enterMonitor tr pc rep now).plot = t.plot := by
  obtain ⟨a, b, c, d, h⟩ := Tile.enterMonitor_parts t tr pc rep now; rw [h]
@[simp] theorem Tile.enterMonitor_lx (t : Tile) (tr : Trap) (pc rep now : Nat) : (t.enterMonitor tr pc rep now).lx = t.lx := by
  obtain ⟨a, b, c, d, h⟩ := Tile.enterMonitor_parts t tr pc rep now; rw [h]
@[simp] theorem Tile.enterMonitor_ly (t : Tile) (tr : Trap) (pc rep now : Nat) : (t.enterMonitor tr pc rep now).ly = t.ly := by
  obtain ⟨a, b, c, d, h⟩ := Tile.enterMonitor_parts t tr pc rep now; rw [h]
@[simp] theorem Tile.enterMonitor_vbanks (t : Tile) (tr : Trap) (pc rep now : Nat) : (t.enterMonitor tr pc rep now).vbanks = t.vbanks := by
  obtain ⟨a, b, c, d, h⟩ := Tile.enterMonitor_parts t tr pc rep now; rw [h]
@[simp] theorem Tile.enterMonitor_withheld (t : Tile) (tr : Trap) (pc rep now : Nat) : (t.enterMonitor tr pc rep now).withheld = t.withheld := by
  obtain ⟨a, b, c, d, h⟩ := Tile.enterMonitor_parts t tr pc rep now; rw [h]
@[simp] theorem Tile.enterMonitor_bad (t : Tile) (tr : Trap) (pc rep now : Nat) : (t.enterMonitor tr pc rep now).bad = t.bad := by
  obtain ⟨a, b, c, d, h⟩ := Tile.enterMonitor_parts t tr pc rep now; rw [h]
@[simp] theorem Tile.enterMonitor_soft (t : Tile) (tr : Trap) (pc rep now : Nat) : (t.enterMonitor tr pc rep now).soft = t.soft := by
  obtain ⟨a, b, c, d, h⟩ := Tile.enterMonitor_parts t tr pc rep now; rw [h]
@[simp] theorem Tile.enterMonitor_polled (t : Tile) (tr : Trap) (pc rep now : Nat) : (t.enterMonitor tr pc rep now).polled = t.polled := by
  obtain ⟨a, b, c, d, h⟩ := Tile.enterMonitor_parts t tr pc rep now; rw [h]
@[simp] theorem Tile.enterMonitor_marks (t : Tile) (tr : Trap) (pc rep now : Nat) : (t.enterMonitor tr pc rep now).marks = t.marks := by
  obtain ⟨a, b, c, d, h⟩ := Tile.enterMonitor_parts t tr pc rep now; rw [h]
@[simp] theorem Tile.enterMonitor_shown (t : Tile) (tr : Trap) (pc rep now : Nat) : (t.enterMonitor tr pc rep now).shown = t.shown := by
  obtain ⟨a, b, c, d, h⟩ := Tile.enterMonitor_parts t tr pc rep now; rw [h]

@[simp] theorem Tile.halt_regs (t : Tile) (tr : Trap) (pc now : Nat) : (t.halt tr pc now).regs = t.regs := rfl
@[simp] theorem Tile.halt_vault (t : Tile) (tr : Trap) (pc now : Nat) : (t.halt tr pc now).vault = t.vault := rfl
@[simp] theorem Tile.halt_mx (t : Tile) (tr : Trap) (pc now : Nat) : (t.halt tr pc now).mx = t.mx := rfl
@[simp] theorem Tile.halt_tags (t : Tile) (tr : Trap) (pc now : Nat) : (t.halt tr pc now).tags = t.tags := rfl
@[simp] theorem Tile.halt_wins (t : Tile) (tr : Trap) (pc now : Nat) : (t.halt tr pc now).wins = t.wins := rfl
@[simp] theorem Tile.halt_bankQ (t : Tile) (tr : Trap) (pc now : Nat) : (t.halt tr pc now).bankQ = t.bankQ := rfl
@[simp] theorem Tile.halt_dynUse (t : Tile) (tr : Trap) (pc now : Nat) : (t.halt tr pc now).dynUse = t.dynUse := rfl
@[simp] theorem Tile.halt_bars (t : Tile) (tr : Trap) (pc now : Nat) : (t.halt tr pc now).bars = t.bars := rfl
@[simp] theorem Tile.halt_pend (t : Tile) (tr : Trap) (pc now : Nat) : (t.halt tr pc now).pend = t.pend := rfl
@[simp] theorem Tile.halt_seqNo (t : Tile) (tr : Trap) (pc now : Nat) : (t.halt tr pc now).seqNo = t.seqNo := rfl
@[simp] theorem Tile.halt_landedAt (t : Tile) (tr : Trap) (pc now : Nat) : (t.halt tr pc now).landedAt = t.landedAt := rfl
@[simp] theorem Tile.halt_dyn (t : Tile) (tr : Trap) (pc now : Nat) : (t.halt tr pc now).dyn = t.dyn := rfl
@[simp] theorem Tile.halt_dynNo (t : Tile) (tr : Trap) (pc now : Nat) : (t.halt tr pc now).dynNo = t.dynNo := rfl
@[simp] theorem Tile.halt_fences (t : Tile) (tr : Trap) (pc now : Nat) : (t.halt tr pc now).fences = t.fences := rfl
@[simp] theorem Tile.halt_inbox (t : Tile) (tr : Trap) (pc now : Nat) : (t.halt tr pc now).inbox = t.inbox := rfl
@[simp] theorem Tile.halt_shcpy (t : Tile) (tr : Trap) (pc now : Nat) : (t.halt tr pc now).shcpy = t.shcpy := rfl
@[simp] theorem Tile.halt_saveSeq (t : Tile) (tr : Trap) (pc now : Nat) : (t.halt tr pc now).saveSeq = t.saveSeq := rfl
@[simp] theorem Tile.halt_corrections (t : Tile) (tr : Trap) (pc now : Nat) : (t.halt tr pc now).corrections = t.corrections := rfl
@[simp] theorem Tile.halt_softLog (t : Tile) (tr : Trap) (pc now : Nat) : (t.halt tr pc now).softLog = t.softLog := rfl
@[simp] theorem Tile.halt_plot (t : Tile) (tr : Trap) (pc now : Nat) : (t.halt tr pc now).plot = t.plot := rfl
@[simp] theorem Tile.halt_lx (t : Tile) (tr : Trap) (pc now : Nat) : (t.halt tr pc now).lx = t.lx := rfl
@[simp] theorem Tile.halt_ly (t : Tile) (tr : Trap) (pc now : Nat) : (t.halt tr pc now).ly = t.ly := rfl
@[simp] theorem Tile.halt_vbanks (t : Tile) (tr : Trap) (pc now : Nat) : (t.halt tr pc now).vbanks = t.vbanks := rfl
@[simp] theorem Tile.halt_withheld (t : Tile) (tr : Trap) (pc now : Nat) : (t.halt tr pc now).withheld = t.withheld := rfl
@[simp] theorem Tile.halt_bad (t : Tile) (tr : Trap) (pc now : Nat) : (t.halt tr pc now).bad = t.bad := rfl
@[simp] theorem Tile.halt_soft (t : Tile) (tr : Trap) (pc now : Nat) : (t.halt tr pc now).soft = t.soft := rfl
@[simp] theorem Tile.halt_polled (t : Tile) (tr : Trap) (pc now : Nat) : (t.halt tr pc now).polled = t.polled := rfl
@[simp] theorem Tile.halt_marks (t : Tile) (tr : Trap) (pc now : Nat) : (t.halt tr pc now).marks = t.marks := rfl
@[simp] theorem Tile.halt_shown (t : Tile) (tr : Trap) (pc now : Nat) : (t.halt tr pc now).shown = t.shown := rfl

/-! ### Register files -/

@[simp] theorem Regs.orFlags_sc (r : Regs) (f : Flags) : (r.orFlags f).sc = r.sc := rfl
@[simp] theorem Regs.orFlags_ss (r : Regs) (f : Flags) : (r.orFlags f).ss = r.ss := rfl
@[simp] theorem Regs.orFlags_preds (r : Regs) (f : Flags) : (r.orFlags f).preds = r.preds := rfl
@[simp] theorem Regs.orFlags_vrow (r : Regs) (f : Flags) : (r.orFlags f).vrow = r.vrow := rfl
@[simp] theorem Regs.orFlags_acc (r : Regs) (f : Flags) : (r.orFlags f).acc = r.acc := rfl
@[simp] theorem Regs.orFlags_accMode (r : Regs) (f : Flags) : (r.orFlags f).accMode = r.accMode := rfl
@[simp] theorem Regs.orFlags_wb (r : Regs) (f : Flags) : (r.orFlags f).wb = r.wb := rfl
@[simp] theorem Regs.orFlags_dir (r : Regs) (f : Flags) : (r.orFlags f).dir = r.dir := rfl
@[simp] theorem Regs.orFlags_norm (r : Regs) (f : Flags) : (r.orFlags f).norm = r.norm := rfl
@[simp] theorem Regs.orFlags_lat (r : Regs) (f : Flags) : (r.orFlags f).lat = r.lat := rfl
@[simp] theorem Regs.orFlags_pflags (r : Regs) (f : Flags) : (r.orFlags f).pflags = r.pflags := rfl
@[simp] theorem Regs.orFlags_rmode (r : Regs) (f : Flags) : (r.orFlags f).rmode = r.rmode := rfl
@[simp] theorem Regs.orFlags_rngKey0 (r : Regs) (f : Flags) : (r.orFlags f).rngKey0 = r.rngKey0 := rfl
@[simp] theorem Regs.orFlags_rngKey1 (r : Regs) (f : Flags) : (r.orFlags f).rngKey1 = r.rngKey1 := rfl
@[simp] theorem Regs.orFlags_rngCtr (r : Regs) (f : Flags) : (r.orFlags f).rngCtr = r.rngCtr := rfl

@[simp] theorem Regs.setScalar_preds (r : Regs) (sup : Bool) (n : Nat) (v : BitVec 64) : (r.setScalar sup n v).preds = r.preds := by unfold Regs.setScalar; repeat (first | rfl | split)
@[simp] theorem Regs.setScalar_vrow (r : Regs) (sup : Bool) (n : Nat) (v : BitVec 64) : (r.setScalar sup n v).vrow = r.vrow := by unfold Regs.setScalar; repeat (first | rfl | split)
@[simp] theorem Regs.setScalar_acc (r : Regs) (sup : Bool) (n : Nat) (v : BitVec 64) : (r.setScalar sup n v).acc = r.acc := by unfold Regs.setScalar; repeat (first | rfl | split)
@[simp] theorem Regs.setScalar_accMode (r : Regs) (sup : Bool) (n : Nat) (v : BitVec 64) : (r.setScalar sup n v).accMode = r.accMode := by unfold Regs.setScalar; repeat (first | rfl | split)
@[simp] theorem Regs.setScalar_wb (r : Regs) (sup : Bool) (n : Nat) (v : BitVec 64) : (r.setScalar sup n v).wb = r.wb := by unfold Regs.setScalar; repeat (first | rfl | split)
@[simp] theorem Regs.setScalar_dir (r : Regs) (sup : Bool) (n : Nat) (v : BitVec 64) : (r.setScalar sup n v).dir = r.dir := by unfold Regs.setScalar; repeat (first | rfl | split)
@[simp] theorem Regs.setScalar_norm (r : Regs) (sup : Bool) (n : Nat) (v : BitVec 64) : (r.setScalar sup n v).norm = r.norm := by unfold Regs.setScalar; repeat (first | rfl | split)
@[simp] theorem Regs.setScalar_lat (r : Regs) (sup : Bool) (n : Nat) (v : BitVec 64) : (r.setScalar sup n v).lat = r.lat := by unfold Regs.setScalar; repeat (first | rfl | split)
@[simp] theorem Regs.setScalar_flags (r : Regs) (sup : Bool) (n : Nat) (v : BitVec 64) : (r.setScalar sup n v).flags = r.flags := by unfold Regs.setScalar; repeat (first | rfl | split)
@[simp] theorem Regs.setScalar_pflags (r : Regs) (sup : Bool) (n : Nat) (v : BitVec 64) : (r.setScalar sup n v).pflags = r.pflags := by unfold Regs.setScalar; repeat (first | rfl | split)
@[simp] theorem Regs.setScalar_rmode (r : Regs) (sup : Bool) (n : Nat) (v : BitVec 64) : (r.setScalar sup n v).rmode = r.rmode := by unfold Regs.setScalar; repeat (first | rfl | split)
@[simp] theorem Regs.setScalar_rngKey0 (r : Regs) (sup : Bool) (n : Nat) (v : BitVec 64) : (r.setScalar sup n v).rngKey0 = r.rngKey0 := by unfold Regs.setScalar; repeat (first | rfl | split)
@[simp] theorem Regs.setScalar_rngKey1 (r : Regs) (sup : Bool) (n : Nat) (v : BitVec 64) : (r.setScalar sup n v).rngKey1 = r.rngKey1 := by unfold Regs.setScalar; repeat (first | rfl | split)
@[simp] theorem Regs.setScalar_rngCtr (r : Regs) (sup : Bool) (n : Nat) (v : BitVec 64) : (r.setScalar sup n v).rngCtr = r.rngCtr := by unfold Regs.setScalar; repeat (first | rfl | split)

@[simp] theorem Regs.setPred_sc (r : Regs) (p : Nat) (b : Bool) : (r.setPred p b).sc = r.sc := by unfold Regs.setPred; split <;> rfl
@[simp] theorem Regs.setPred_ss (r : Regs) (p : Nat) (b : Bool) : (r.setPred p b).ss = r.ss := by unfold Regs.setPred; split <;> rfl
@[simp] theorem Regs.setPred_vrow (r : Regs) (p : Nat) (b : Bool) : (r.setPred p b).vrow = r.vrow := by unfold Regs.setPred; split <;> rfl
@[simp] theorem Regs.setPred_acc (r : Regs) (p : Nat) (b : Bool) : (r.setPred p b).acc = r.acc := by unfold Regs.setPred; split <;> rfl
@[simp] theorem Regs.setPred_accMode (r : Regs) (p : Nat) (b : Bool) : (r.setPred p b).accMode = r.accMode := by unfold Regs.setPred; split <;> rfl
@[simp] theorem Regs.setPred_wb (r : Regs) (p : Nat) (b : Bool) : (r.setPred p b).wb = r.wb := by unfold Regs.setPred; split <;> rfl
@[simp] theorem Regs.setPred_dir (r : Regs) (p : Nat) (b : Bool) : (r.setPred p b).dir = r.dir := by unfold Regs.setPred; split <;> rfl
@[simp] theorem Regs.setPred_norm (r : Regs) (p : Nat) (b : Bool) : (r.setPred p b).norm = r.norm := by unfold Regs.setPred; split <;> rfl
@[simp] theorem Regs.setPred_lat (r : Regs) (p : Nat) (b : Bool) : (r.setPred p b).lat = r.lat := by unfold Regs.setPred; split <;> rfl
@[simp] theorem Regs.setPred_flags (r : Regs) (p : Nat) (b : Bool) : (r.setPred p b).flags = r.flags := by unfold Regs.setPred; split <;> rfl
@[simp] theorem Regs.setPred_pflags (r : Regs) (p : Nat) (b : Bool) : (r.setPred p b).pflags = r.pflags := by unfold Regs.setPred; split <;> rfl
@[simp] theorem Regs.setPred_rmode (r : Regs) (p : Nat) (b : Bool) : (r.setPred p b).rmode = r.rmode := by unfold Regs.setPred; split <;> rfl
@[simp] theorem Regs.setPred_rngKey0 (r : Regs) (p : Nat) (b : Bool) : (r.setPred p b).rngKey0 = r.rngKey0 := by unfold Regs.setPred; split <;> rfl
@[simp] theorem Regs.setPred_rngKey1 (r : Regs) (p : Nat) (b : Bool) : (r.setPred p b).rngKey1 = r.rngKey1 := by unfold Regs.setPred; split <;> rfl
@[simp] theorem Regs.setPred_rngCtr (r : Regs) (p : Nat) (b : Bool) : (r.setPred p b).rngCtr = r.rngCtr := by unfold Regs.setPred; split <;> rfl

end Sys2Proof.Machine
end

