-- ==== Sys2Proof/Laws/Trap.lean ====
section
/-! SUPPORT. Taking a trap and returning from one, and what a C operation asks of its tile. -/
namespace Sys2Proof.Machine

/-- Nothing is pending, so nothing drains. -/
theorem State.drainAll_idle (s : State) (n k : Nat) (h : (s.tile n).pend = []) : s.drainAll n k = s := by
  cases k with
  | zero => rfl
  | succ k => simp [State.drainAll, h]
@[simp] theorem State.tile_countEvent (s : State) (p c k n : Nat) : (s.countEvent p c k).tile n = s.tile n := by
  simp [State.tile]
@[simp] theorem State.tile_countTile (s : State) (m c k n : Nat) : (s.countTile m c k).tile n = s.tile n := by
  simp [State.tile]
@[simp] theorem State.tile_ringPut (s : State) (r p w n : Nat) : (s.ringPut r p w).tile n = s.tile n := by
  unfold State.ringPut
  split
  · rfl
  · dsimp only
    split
    · simp [State.tile]
    · rfl
@[simp] theorem State.tile_record (s : State) (ev c r a b n : Nat) : (s.record ev c r a b).tile n = s.tile n := by
  unfold State.record
  split
  · rfl
  · dsimp only; split <;> simp
@[simp] theorem State.tile_tileRecord (s : State) (m ev a b n : Nat) : (s.tileRecord m ev a b).tile n = s.tile n := by
  unfold State.tileRecord; split <;> simp

/-- A fold of changes of other tiles leaves a tile alone. -/
theorem State.tile_foldl_mapTile (l : List Nat) (f : Tile → Tile) (s : State) (n : Nat) (h : n ∉ l) :
    (l.foldl (fun s m => s.mapTile m f) s).tile n = s.tile n := by
  induction l generalizing s with
  | nil => rfl
  | cons m r ih =>
    simp only [List.mem_cons, not_or] at h
    simp only [List.foldl_cons]
    rw [ih _ h.2, State.tile_mapTile_other _ _ _ _ h.1]
@[simp] theorem State.tile_mapPlot (s : State) (k n : Nat) (f : Plot → Plot) : (s.mapPlot k f).tile n = s.tile n := by
  simp [State.tile]
@[simp] theorem State.tile_setLease (s : State) (k n : Nat) (f : Lease → Lease) : (s.setLease k f).tile n = s.tile n := by
  unfold State.setLease; split <;> simp
@[simp] theorem State.tile_endLease (s : State) (k n : Nat) (r : BitVec 4) : (s.endLease k r).tile n = s.tile n := by
  unfold State.endLease
  split
  · rfl
  · split <;> simp
/-- A plot stop reaches the other tiles of the plot, not the tile that sends it. -/
theorem State.tile_sendStop_self (s : State) (n : Nat) (c : BitVec 8) (pc : Nat) :
    (s.sendStop n c pc).tile n = s.tile n := by
  unfold State.sendStop
  split
  · rfl
  · dsimp only
    rw [State.tile_foldl_mapTile _ _ _ _ (by simp)]
    split
    · split <;> simp
    · rfl

/-- The sc of a tile is its plot's, whatever the tile holds beside its plot. -/
theorem State.now_of_plot (s t : State) (n : Nat) (hp : t.plots = s.plots) (ht : (t.tile n).plot = (s.tile n).plot) :
    t.now n = s.now n := by simp [State.now, State.plotOf, hp, ht]
@[simp] theorem State.plots_ringPut (s : State) (r p w : Nat) : (s.ringPut r p w).plots = s.plots := by
  unfold State.ringPut
  split
  · rfl
  · dsimp only; split <;> simp
@[simp] theorem State.plots_record (s : State) (ev c r a b : Nat) : (s.record ev c r a b).plots = s.plots := by
  unfold State.record
  split
  · rfl
  · dsimp only; split <;> simp
@[simp] theorem State.plots_tileRecord (s : State) (m ev a b : Nat) : (s.tileRecord m ev a b).plots = s.plots := by
  unfold State.tileRecord; split <;> simp

@[simp] theorem State.tile_forget (s : State) (p : Req → Bool) (n : Nat) : (s.forget p).tile n = s.tile n := rfl
@[simp] theorem State.plots_forget (s : State) (p : Req → Bool) : (s.forget p).plots = s.plots := rfl

/-- What taking a trap leaves in the tile that takes it, with nothing under way: its matrix engine is idle (27 R434, R436). -/
theorem State.takeTrap_tile (s : State) (n : Nat) (tr : Trap) (pc rep : Nat) (h : (s.tile n).pend = []) :
    (s.takeTrap n tr pc rep).tile n =
      if (s.tile n).trap.sup then ({ s.tile n with mx := Mx.reset } : Tile).halt tr pc (s.now n)
      else ({ s.tile n with mx := Mx.reset } : Tile).enterMonitor tr pc rep (s.now n) := by
  have core : ∀ q : State, q.tile n = { s.tile n with mx := Mx.reset } → q.plots = s.plots →
      (if (q.tile n).trap.sup then (q.setTile n ((q.tile n).halt tr pc (q.now n))).sendStop n tr.code pc
        else if ownTrap tr.code then (q.setTile n ((q.tile n).enterMonitor tr pc rep (q.now n))).sendStop n tr.code pc
        else q.setTile n ((q.tile n).enterMonitor tr pc rep (q.now n))).tile n =
      if (s.tile n).trap.sup then ({ s.tile n with mx := Mx.reset } : Tile).halt tr pc (s.now n)
        else ({ s.tile n with mx := Mx.reset } : Tile).enterMonitor tr pc rep (s.now n) := by
    intro q h1 h2
    rw [h1, State.now_of_plot s q n h2 (by rw [h1])]
    split
    · rw [State.tile_sendStop_self, State.tile_setTile_self]
    · split
      · rw [State.tile_sendStop_self, State.tile_setTile_self]
      · rw [State.tile_setTile_self]
  unfold State.takeTrap
  rw [State.drainAll_idle _ _ _ h]
  dsimp only
  split
  · exact core _ (by simp) (by simp)
  · exact core _ (by simp) (by simp)

end Sys2Proof.Machine
end

