-- ==== Sys2Proof/Laws/Ops.lean ====
section
/-! SUPPORT. What the shared operations can change: reservations, barriers, effects begun, the return from a trap. -/
namespace Sys2Proof.Machine

/-- A reservation of sides changes the reservations of the tile alone. -/
theorem reserve_ok (e : Env) (ps : List Port) (t u : Tile) (h : reserve e ps t = .ok u) :
    u = { t with ports := u.ports } := by
  unfold reserve at h
  split at h
  · cases h; rfl
  · cases h
/-- Counts into a barrier change tiles alone, and of those the members alone. -/
theorem State.mapBar_eq (s : State) (b : Nat) (f : Bar → Bar) (ms : List Nat) :
    s.mapBar b f ms = { s with tiles := (s.mapBar b f ms).tiles } := by
  unfold State.mapBar
  induction ms generalizing s with
  | nil => rfl
  | cons m r ih =>
    simp only [List.foldl_cons]
    rw [ih]; simp [State.mapTile, State.setTile]
theorem State.tile_mapBar_other (s : State) (b n : Nat) (f : Bar → Bar) (ms : List Nat) (h : n ∉ ms) :
    (s.mapBar b f ms).tile n = s.tile n := State.tile_foldl_mapTile _ _ _ _ h
theorem State.count_eq (s : State) (n b arr bytes : Nat) (f : Flags) (err esub : BitVec 8) :
    s.count n b arr bytes f err esub = { s with tiles := (s.count n b arr bytes f err esub).tiles } :=
  State.mapBar_eq _ _ _ _
theorem State.tile_count_other (s : State) (n b arr bytes m : Nat) (f : Flags) (err esub : BitVec 8)
    (h : m ∉ s.members n b) : (s.count n b arr bytes f err esub).tile m = s.tile m :=
  State.tile_mapBar_other _ _ _ _ _ h
/-- The return from a trap: the pc and the issue from TPC and TCAUSE, the stacks from their shadows (27 R437). -/
theorem Tile.returnTrap_parts (t : Tile) :
    t.returnTrap.trap.sup = false ∧ t.returnTrap.seq.loops = t.trap.shadowLoops ∧
    t.returnTrap.seq.reissue = t.trap.shadowRe ∧ t.returnTrap.seq.pc = t.trap.tpc.toNat % 2 ^ 24 ∧
    t.returnTrap.trap.tcause = t.trap.tcause ∧ t.returnTrap.trap.evec = t.trap.evec := ⟨rfl, rfl, rfl, rfl, rfl, rfl⟩
/-- An effect begun joins the effects under way. -/
@[simp] theorem Tile.push_pend (e : Env) (u : Nat) (a : Act) (t : Tile) :
    (t.push e u a).pend = pendInsert ⟨u, a.rank, t.seqNo, e.addr, e.slot, a⟩ t.pend := rfl
/-- A register written in the scalar file: s0 discards the write (11 R194). -/
theorem Regs.setScalar_user (r : Regs) (n k : Nat) (v : BitVec 64) :
    sget 0 (r.setScalar false n v).sc k = if k = n ∧ n ≠ 0 then v else sget 0 r.sc k := by
  unfold Regs.setScalar
  by_cases h : n = 0
  · simp [h]
  · simp [h, sget_sset]

end Sys2Proof.Machine
end

