-- ==== Sys2Proof/Tests/Slice0.lean ====
section
/-! SUPPORT. Tests of one step each: a word of every operation written out from its encoding table, ill-formed terms for
every check of well-formedness, and states that meet the hypotheses of the statements. Expected values are worked out
from the tables and examples of the spec. -/
set_option maxRecDepth 100000
set_option exponentiation.threshold 4096
set_option Elab.async false
namespace Sys2Proof.Tests
open Sys2Proof Sys2Proof.Machine Sys2Proof.Claims

/-! ### Decoding: a word of every operation (03 R59-R72 and the field tables of the class chapters) -/

/-- The words of an entry decode to its instruction, which is well formed and encodes to them. -/
def reads (cl : Cls) (e : Word32 × Word32 × Instr) : Bool :=
  match decodeOp 48 cl e.1 e.2.1 with
  | .ok i => i == e.2.2 && wellFormed 48 i && encode i == (if opWords cl (fld e.1 24 7) = 2 then [e.1, e.2.1] else [e.1])
  | .error _ => false
def wordsC1 : List (Word32 × Word32 × Instr) := [
  (0x01FFFFFE, 0x00000000, .br 0xFFFFFE),
  (0x025FFFFD, 0x00000000, .brp 5 true 0x7FFFD),
  (0x03123456, 0x00000000, .call 0x123456),
  (0x04000000, 0x00000000, .ret),
  (0x05260000, 0x00000000, .jmps 9 true),
  (0x08FFE321, 0x00000000, .loop 0xFFE 0x321),
  (0x0984002A, 0x00000000, .loopv 33 0x2A),
  (0x0AAD9155, 0x00000000, .loops .north 11 6 .h5 0x155),
  (0x0B000000, 0x00000000, .leave),
  (0x0C7D8000, 0x00000000, .walkn 7 13 .plot),
  (0x10012345, 0x6789ABCD, .align 0x91a2e789abcd),
  (0x1100002A, 0x00000000, .hold 42),
  (0x120C4B94, 0x7FFFC000, .waita 3 4 .ge true true 37 0xFFFF8),
  (0x1355BEEF, 0x59900000, .bari 21 .bed 0xBEEF 5 4 50),
  (0x1400002F, 0x00000000, .bara 47),
  (0x15D3001E, 0x00000000, .barw true true 19 30),
  (0x16000004, 0x00000000, .fence .system),
  (0x1800CAFE, 0x00000000, .trap 0xCAFE),
  (0x19001234, 0x00000000, .sysc 0x1234),
  (0x1A000000, 0x00000000, .eret)]

theorem test_decode_c1 : ∀ e ∈ wordsC1, reads .c e = true := by decide

def wordsC2 : List (Word32 × Word32 × Instr) := [
  (0x20854321, 0x55E6F000, .lease 16 0x54321 0xABCDE),
  (0x21448001, 0x00000000, .mark 17 0x8001),
  (0x2291C000, 0x00000000, .savept 9 28),
  (0x23ABCE8C, 0x00000000, .ovl 0xABC 29 12)]

theorem test_decode_c2 : ∀ e ∈ wordsC2, reads .c e = true := by decide

def wordsS1 : List (Word32 × Word32 × Instr) := [
  (0x0112D6C0, 0x00000000, .add 4 45 27),
  (0x021F2880, 0x00000000, .sub 7 50 34),
  (0x032B7A40, 0x00000000, .mul 10 55 41),
  (0x0437CC00, 0x00000000, .mulh 13 60 48),
  (0x05401DC0, 0x00000000, .mulhu 16 1 55),
  (0x064C6F80, 0x00000000, .and 19 6 62),
  (0x0758B140, 0x00000000, .or 22 11 5),
  (0x08650300, 0x00000000, .xor 25 16 12),
  (0x097154C0, 0x00000000, .andn 28 21 19),
  (0x0A7DA680, 0x00000000, .shl 31 26 26),
  (0x0B89F840, 0x00000000, .shr 34 31 33),
  (0x0C964A00, 0x00000000, .sar 37 36 40),
  (0x0DA29BC0, 0x00000000, .rol 40 41 47),
  (0x0EAEED80, 0x00000000, .min 43 46 54),
  (0x0FBB3F40, 0x00000000, .max 46 51 61),
  (0x10C78100, 0x00000000, .minu 49 56 4),
  (0x11D3D2C0, 0x00000000, .maxu 52 61 11),
  (0x12F45000, 0x00000000, .clz 61 5),
  (0x13F86000, 0x00000000, .popc 62 6),
  (0x140420DF, 0x00000000, .extb 1 2 3 31)]

theorem test_decode_s1 : ∀ e ∈ wordsS1, reads .s e = true := by decide

def wordsS2 : List (Word32 × Word32 × Instr) := [
  (0x151051BF, 0x00000000, .insb 4 5 6 63),
  (0x161C824E, 0x00000000, .sel 7 8 9 14),
  (0x18042FFF, 0x00000000, .addi 1 2 0xFFF),
  (0x190C4801, 0x00000000, .andi 3 4 0x801),
  (0x1A1467FF, 0x00000000, .ori 5 6 0x7FF),
  (0x1B1C8123, 0x00000000, .xori 7 8 0x123),
  (0x1C24A03F, 0x00000000, .shli 9 10 63),
  (0x1D2CC021, 0x00000000, .shri 11 12 33),
  (0x1E34E001, 0x00000000, .sari 13 14 1),
  (0x20500001, 0x2BCDEF01, .li 20 0xABCDEF01),
  (0x21540000, 0x7FFFFFFE, .lih 21 0x7FFFFFFE),
  (0x240F2780, 0x00000000, .cmpeq 3 50 30),
  (0x251337C0, 0x00000000, .cmpne 4 51 31),
  (0x26174800, 0x00000000, .cmplt 5 52 32),
  (0x271B5840, 0x00000000, .cmple 6 53 33),
  (0x281F6880, 0x00000000, .cmpltu 7 54 34),
  (0x292378C0, 0x00000000, .cmpleu 8 55 35),
  (0x2A3D6FFE, 0x00000000, .cmpeqi 15 22 0xFFE),
  (0x2B317005, 0x00000000, .cmplti 12 23 5),
  (0x2C0452C0, 0x00000000, .pand 1 5 11)]

theorem test_decode_s2 : ∀ e ∈ wordsS2, reads .s e = true := by decide

def wordsS3 : List (Word32 × Word32 × Instr) := [
  (0x2D086300, 0x00000000, .por 2 6 12),
  (0x2E0C7340, 0x00000000, .pxor 3 7 13),
  (0x2F109000, 0x00000000, .pnot 4 9),
  (0x30A00147, 0x00000000, .movs 40 0x147),
  (0x31029010, 0x00000000, .movt 41 0x010),
  (0x3202AAC0, 0x00000000, .movp 42 43),
  (0x33B00000, 0x00000000, .movps 44),
  (0x380420C6, 0x00000000, .fadd 1 2 3 .dyn),
  (0x39105181, 0x00000000, .fsub 4 5 6 .rz),
  (0x3A1C8242, 0x00000000, .fmul 7 8 9 .ru),
  (0x3B28B30D, 0x00000004, .ffma 10 11 12 13 .rna),
  (0x3C18E3C0, 0x00000000, .fcmplt 6 14 15),
  (0x3D1D0440, 0x00000000, .fcmpeq 7 16 17),
  (0x3E49303B, 0x00000000, .fcvti 18 19 true true true .rd),
  (0x3F515010, 0x00000000, .fcvtf 20 21 false true .rne)]

theorem test_decode_s3 : ∀ e ∈ wordsS3, reads .s e = true := by decide

def wordsV1 : List (Word32 × Word32 × Instr) := [
  (0x010000B1, 0x218F804D, .vadd ⟨.f32, .rz, true, .row 5, .col 3 7, .spec 9, 5⟩),
  (0x02605FE0, 0x57FE0008, .vsub ⟨.i16, .rne, false, .row 767, .diag 47 63, .row 1, 0⟩),
  (0x030A1070, 0x000981FA, .vmul ⟨.bf16, .rne, true, .col 2 3, .row 4, .spec 63, 2⟩),
  (0x04140846, 0x0010004F, .vfma ⟨.f16, .dyn, false, .diag 1 2, .row 8, .row 9, 7⟩),
  (0x05400140, 0x00160061, .vmin ⟨.i8, .row 10, .row 11, .row 12, 1⟩),
  (0x064801A0, 0x001D807A, .vmax ⟨.u8, .row 13, .row 14, .spec 15, 2⟩),
  (0x07A00210, 0x00220006, .vabs ⟨.i32, true, .row 16, .row 17, 6⟩),
  (0x08000240, 0x00260000, .vneg ⟨.f32, false, .row 18, .row 19, 0⟩),
  (0x09A003A0, 0x24CF1541, .vand ⟨.i32, .row 29, .col 9 39, .diag 10 40, 1⟩),
  (0x0AA003C0, 0x2551174A, .vor ⟨.i32, .row 30, .col 10 40, .diag 11 41, 2⟩),
  (0x0BA003E0, 0x25D31953, .vxor ⟨.i32, .row 31, .col 11 41, .diag 12 42, 3⟩),
  (0x0CA80400, 0x26551B5C, .vshl ⟨.u32, .row 32, .col 12 42, .diag 13 43, 4⟩),
  (0x0D600420, 0x26D71D65, .vshr ⟨.i16, .row 33, .col 13 43, .diag 14 44, 5⟩),
  (0x0E400440, 0x27591F6E, .vsar ⟨.i8, .row 34, .col 14 44, .diag 15 45, 6⟩),
  (0x0FC00460, 0x27DB2177, .vsel ⟨.e8m0, .row 35, .col 15 45, .diag 16 46, 7⟩),
  (0x10080480, 0x285D2378, .vcmpeq ⟨.bf16, .row 36, .col 16 46, .diag 17 47, 0⟩),
  (0x111004A0, 0x28DF2581, .vcmplt ⟨.f16, .row 37, .col 17 47, .diag 18 48, 1⟩),
  (0x120004C0, 0x2961278A, .vcmple ⟨.f32, .row 38, .col 18 48, .diag 19 49, 2⟩),
  (0x17480560, 0x2BEB31B7, .vmulh ⟨.u8, .row 43, .col 23 53, .diag 24 54, 7⟩),
  (0x130003C0, 0x003E0004, .vmov .f32 (.row 30) (.row 31) 4)]

theorem test_decode_v1 : ∀ e ∈ wordsV1, reads .v e = true := by decide

def wordsV2 : List (Word32 × Word32 × Instr) := [
  (0x14B00400, 0x00420002, .vbcs .q15 (.row 32) 33 2),
  (0x15600440, 0x00460123, .viota .i16 (.row 34) 35 36 3),
  (0x165004B7, 0x004D8138, .vmadw .i4 true 7 (.row 37) (.row 38) (.spec 39) 0),
  (0x18080195, 0x00500100, .vcvt ⟨.bf16, .f32, 1, .sr, true, .row 12, .row 40, 0⟩),
  (0x191801A0, 0x00520306, .vcvtef ⟨.e5m2, .f32, 3, .rne, false, .row 13, .row 41, 6⟩),
  (0x1A0001DB, 0x00558159, .vsacc .f32 .rd true true (.row 14) (.row 42) (.spec 43) 1),
  (0x1BA801E0, 0x00000004, .vrng .u32 (.row 15) 4),
  (0x20600280, 0x00100326, .vrotr ⟨.i16, .row 20, .row 8, .imm 100, 6⟩),
  (0x21000400, 0x00218029, .vrotc ⟨.f32, .row 32, .row 16, .reg 5, 1⟩),
  (0x224002A0, 0x001203F8, .vbcr ⟨.i8, .row 21, .row 9, .imm 127, 0⟩),
  (0x23000600, 0x00800078, .vbcc ⟨.f32, .row 48, .row 64, .imm 15, 0⟩),
  (0x240002C2, 0x00140002, .vredr ⟨.f32, .min, .row 22, .row 10, 2⟩),
  (0x25A002E1, 0x00A00004, .vredc ⟨.i32, .max, .row 23, .row 80, 4⟩),
  (0x26600280, 0x00100018, .vshfr ⟨.i16, .row 20, .row 8, .imm 3, 0⟩),
  (0x27000C00, 0x00E181FF, .vshfc ⟨.f32, .row 96, .row 112, .reg 63, 7⟩),
  (0x28001000, 0x01200000, .vtrn .f32 (.row 128) (.row 144) 0),
  (0x30A00640, 0x00500055, .vpart .i32 (.row 50) (.row 40) 10 5),
  (0x31200320, 0x00560002, .vcnt .e4m3 25 (.row 43) 2),
  (0x32A80341, 0x00580004, .vargm .u32 true 26 (.row 44) 4),
  (0x40080102, 0x005A0002, .dnorm .bf16 .g4 8 (.row 45) 2)]

theorem test_decode_v2 : ∀ e ∈ wordsV2, reads .v e = true := by decide

def wordsV3 : List (Word32 × Word32 × Instr) := [
  (0x411005C1, 0x000C0000, .dcvt .f16 .g2 (.row 46) 6 0),
  (0x420003E3, 0x002000C3, .ddot ⟨.g8, 31, 16, 24, 3⟩),
  (0x43000404, 0x00200180, .ddotn ⟨.g16, 32, 16, 48, 0⟩),
  (0x44000405, 0x00420006, .dscl ⟨.g32, 32, 33, 6⟩),
  (0x45000082, 0x00180000, .dneg ⟨.g4, 4, 12, 0⟩),
  (0x46000102, 0x00080060, .dadd ⟨.g4, 8, 4, 12, 0⟩),
  (0x47000020, 0x0004001F, .dsub ⟨.g1, 1, 2, 3, 7⟩),
  (0x48000141, 0x00280119, .dmix ⟨.g2, 10, 20, 35, 1⟩),
  (0x49000503, 0x006001C0, .dproj ⟨.g8, 40, 48, 56, 0⟩),
  (0x4A0005E1, 0x00040100, .dsim .g2 (.row 47) 2 32 0),
  (0x4B000162, 0x00480004, .dzt .g4 11 36 4),
  (0x4C0007E0, 0x007C0006, .dmov ⟨.g1, 63, 62, 6⟩),
  (0x4D000442, 0x00500000, .dgetn ⟨.g4, 34, 40, 0⟩),
  (0x4E000582, 0x00460002, .dsetn ⟨.g4, 44, 35, 2⟩)]

theorem test_decode_v3 : ∀ e ∈ wordsV3, reads .v e = true := by decide

def wordsF : List (Word32 × Word32 × Instr) := [
  (0x010807A1, 0x00A20002, .frcp ⟨.bf16, .rz, .row 61, .row 81, 2⟩),
  (0x021007C2, 0x00A40004, .frsq ⟨.f16, .ru, .row 62, .row 82, 4⟩),
  (0x030007E3, 0x00A60006, .fsqrt ⟨.f32, .rd, .row 63, .row 83, 6⟩),
  (0x04080804, 0x00A80000, .fexp2 ⟨.bf16, .rna, .row 64, .row 84, 0⟩),
  (0x05100826, 0x00AA0002, .flog2 ⟨.f16, .dyn, .row 65, .row 85, 2⟩),
  (0x06000840, 0x00AC0004, .fsin ⟨.f32, .rne, .row 66, .row 86, 4⟩),
  (0x07080861, 0x00AE0006, .fcos ⟨.bf16, .rz, .row 67, .row 87, 6⟩),
  (0x08100882, 0x00B00000, .ftanh ⟨.f16, .ru, .row 68, .row 88, 0⟩),
  (0x090008A3, 0x00B20002, .fsigm ⟨.f32, .rd, .row 69, .row 89, 2⟩),
  (0x0A0008C1, 0x220B8037, .fdiv .f32 .rz (.row 70) (.col 4 5) (.spec 6) 7),
  (0x10000020, 0x002A014A, .sdiv ⟨1, 21, 41, 2⟩),
  (0x11000040, 0x002C0153, .sdivu ⟨2, 22, 42, 3⟩),
  (0x12000060, 0x002E015C, .srem ⟨3, 23, 43, 4⟩),
  (0x13000080, 0x00300165, .sremu ⟨4, 24, 44, 5⟩)]

theorem test_decode_f : ∀ e ∈ wordsF, reads .f e = true := by decide

def wordsM1 : List (Word32 × Word32 × Instr) := [
  (0x010D1460, 0x5FFE07FE, .ldv (.col 5 6) ⟨3, 0xBFFC0, 0xFF, 6⟩),
  (0x02130070, 0x00020008, .stv (.spec 7) ⟨4, 0x40, 1, 0⟩),
  (0x03087006, 0x00020004, .lds true .b32 7 ⟨2, 0x40, 0, 4⟩),
  (0x04148003, 0x5FFFC402, .sts .b64 8 ⟨5, 0xBFFF8, 0x80, 2⟩),
  (0x05180140, 0x00080010, .ldg (.row 20) ⟨6, 0x100, 2, 0⟩),
  (0x061C2FE0, 0x0008201A, .stg (.row 766) ⟨7, 0x104, 3, 2⟩),
  (0x072000C2, 0x000E0020, .ldd .g4 12 ⟨8, 0x1C0, 4, 0⟩),
  (0x08240205, 0x0010002C, .std .g32 32 ⟨9, 0x200, 5, 4⟩),
  (0x0928B0C1, 0x00120037, .ldwb true 11 12 ⟨10, 0x240, 6, 7⟩),
  (0x10054284, 0x00180000, .aadd true 20 40 ⟨1, 0x300, 0, 0⟩),
  (0x100951EC, 0x7FF807FF, .aaddRem true 21 30 ⟨2, 0xfff00, 255, 7⟩),
  (0x11095290, 0x00184009, .afadd false 21 41 ⟨2, 0x308, 1, 1⟩),
  (0x110D61F8, 0x7FF847F6, .afaddRem false 22 31 ⟨3, 0xfff08, 254, 6⟩),
  (0x120D62A4, 0x00188012, .amin true 22 42 ⟨3, 0x310, 2, 2⟩),
  (0x1211720C, 0x7FF887ED, .aminRem true 23 32 ⟨4, 0xfff10, 253, 5⟩),
  (0x131172B0, 0x0018C01B, .amax false 23 43 ⟨4, 0x318, 3, 3⟩),
  (0x13158218, 0x7FF8C7E4, .amaxRem false 24 33 ⟨5, 0xfff18, 252, 4⟩),
  (0x141582C4, 0x00190024, .aminu true 24 44 ⟨5, 0x320, 4, 4⟩),
  (0x1419922C, 0x7FF907DB, .aminuRem true 25 34 ⟨6, 0xfff20, 251, 3⟩),
  (0x151992D0, 0x0019402D, .amaxu false 25 45 ⟨6, 0x328, 5, 5⟩)]

theorem test_decode_m1 : ∀ e ∈ wordsM1, reads .m e = true := by decide

def wordsM2 : List (Word32 × Word32 × Instr) := [
  (0x151DA238, 0x7FF947D2, .amaxuRem false 26 35 ⟨7, 0xfff28, 250, 2⟩),
  (0x161DA2E4, 0x00198036, .aand true 26 46 ⟨7, 0x330, 6, 6⟩),
  (0x1621B24C, 0x7FF987C9, .aandRem true 27 36 ⟨8, 0xfff30, 249, 1⟩),
  (0x1721B2F0, 0x0019C03F, .aor false 27 47 ⟨8, 0x338, 7, 7⟩),
  (0x1725C258, 0x7FF9C7C0, .aorRem false 28 37 ⟨9, 0xfff38, 248, 0⟩),
  (0x1825C304, 0x001A0040, .axor true 28 48 ⟨9, 0x340, 8, 0⟩),
  (0x1829D26C, 0x7FFA07BF, .axorRem true 29 38 ⟨10, 0xfff40, 247, 7⟩),
  (0x1929D310, 0x001A4049, .axch false 29 49 ⟨10, 0x348, 9, 1⟩),
  (0x192DE278, 0x7FFA47B6, .axchRem false 30 39 ⟨11, 0xfff48, 246, 6⟩),
  (0x1A2DE324, 0x001A8052, .acas true 30 50 ⟨11, 0x350, 10, 2⟩),
  (0x1A31F28C, 0x7FFA87AD, .acasRem true 31 40 ⟨12, 0xfff50, 245, 5⟩),
  (0x202CC0DC, 0x091A280D, .ldr (some .system) 12 13 ⟨11, 0x12345, 1, 5⟩),
  (0x2138F100, 0x7FFFF810, .str none 15 16 ⟨14, 0xFFFFF, 2, 0⟩),
  (0x22452000, 0x002007F6, .shcpy 18 ⟨17, 0x400, 0xFE, 6⟩),
  (0x234C0213, 0x4000004A, .publ 33 .device ⟨19, 0x80000, 9, 2⟩),
  (0x24500000, 0x00000004, .shcan 20 4),
  (0x25556000, 0x00000002, .shqry 21 22 2)]

theorem test_decode_m2 : ∀ e ∈ wordsM2, reads .m e = true := by decide

def wordsX : List (Word32 × Word32 × Instr) := [
  (0x01235CCC, 0x0081A964, .mma ⟨.e4m3, .bp2, 3, 9, .bpl, .l0, true, .row 64, true, 0x2A5, true, 4⟩),
  (0x02427FB0, 0x0580FFC2, .mmaz ⟨.i8, .u8, 7, 15, .s24, .l1, false, .row 704, false, 0x3FF, false, 2⟩),
  (0x03006304, 0x01016806, .mseq ⟨.f32, .bf16, 4, 6, .none, .none, true, .row 128, 45, 6⟩),
  (0x04002801, 0x00000004, .mzero 5 true 4),
  (0x05001000, 0x00202C02, .mrd ⟨2, .row 16, 5, true, 2⟩),
  (0x06003000, 0x0023F804, .mwr ⟨6, .row 17, 63, false, 4⟩)]

theorem test_decode_x : ∀ e ∈ wordsX, reads .x e = true := by decide

def wordsK : List (Word32 × Word32 × Instr) := [
  (0x01C00901, 0x00000000, .kset true true (.row 9) true),
  (0x02800000, 0x00000000, .kone true)]

theorem test_decode_k : ∀ e ∈ wordsK, reads .k e = true := by decide

def wordsD : List (Word32 × Word32 × Instr) := [
  (0x019448FF, 0x00000000, .act 2 5 0x123 0x3F),
  (0x022EC020, 0x5FFB0400, .rd ⟨0, 11, 22, 32, 12285, 130⟩),
  (0x0372E021, 0x5FF90600, .wr ⟨1, 12, 23, 33, 12284, 131⟩),
  (0x04B70022, 0x5FF70800, .rda ⟨2, 13, 24, 34, 12283, 132⟩),
  (0x05FB2023, 0x5FF50A00, .wra ⟨3, 14, 25, 35, 12282, 133⟩),
  (0x06FC0001, 0x00000000, .pre 3 15 1),
  (0x07400000, 0x00000000, .prea 1),
  (0x08800000, 0x00000000, .ref 2),
  (0x09640020, 0x00000000, .refb 1 9 0x20)]

theorem test_decode_d : ∀ e ∈ wordsD, reads .d e = true := by decide

def wordsN : List (Word32 × Word32 × Instr) := [
  (0x014C0054, 0x00000006, .sdrv ⟨.west, 3, 0, 6⟩ (.scalar 5)),
  (0x02800081, 0x091A4B04, .stap ⟨.north, 0, 4, 4⟩ (.row (.row 8)) (.reg 37 0x1234)),
  (0x03FC009A, 0x7FFFBC02, .sfwd ⟨.south, 15, 0, 2⟩ (.spad 9) (.age 0xFFFF) .west 14),
  (0x0410000C, 0x00000084, .seos ⟨.east, 4, 2, 4⟩),
  (0x05200150, 0x400046CE, .sred ⟨.east, 8, 3, 6⟩ (.row (.row 21)) (.abs 0x8000) .north 3 1)]

theorem test_decode_n : ∀ e ∈ wordsN, reads .n e = true := by decide


/-! ### Well-formedness: a term refused for each check -/

/-- The instructions of a list are ill-formed on a tile of 44 panels. -/
def refused (l : List Instr) : Bool := l.all (fun i => !wellFormed 44 i)
def okV : VArith := ⟨.i16, .rne, false, .row 0, .row 0, .row 0, 0⟩
def okMem : MAddr := ⟨0, 0, 0, 0⟩
def okX : XMma := ⟨.bf16, .bf16, 0, 0, .none, .none, false, .row 0, false, 0, false, 0⟩

theorem test_ill_formed_controls : refused [.barw false true 1 0, .barw true true 0 48, .waita 0 0 .eq false false 1 0,
    .bari 48 .tile 0 0 0 0, .bari 0 .tile 0 6 0 0, .bari 0 .tile 0 0 5 0, .bara 48, .lease 0 0 0, .lease 17 0 0,
    .ovl 0 0 48] = true := by decide
theorem test_ill_formed_views : refused [.vadd { okV with dst := .row 704 }, .vadd { okV with dst := .spec 0 },
    .vadd { okV with a := .col 44 0 }, .vsub { okV with b := .diag 44 0 }, .vadd { okV with rm := .rz },
    .vfma { okV with a := .row 704 }, .vmin ⟨.i16, .row 0, .row 704, .row 0, 0⟩, .vabs ⟨.f32, false, .row 0, .row 704, 0⟩,
    .vabs ⟨.f32, false, .row 0, .row 0, 1⟩, .vmov .f32 (.row 704) (.row 0) 0, .vmov .f32 (.row 0) (.row 0) 1,
    .vbcs .f32 (.spec 0) 0 0, .vbcs .f32 (.row 0) 0 1, .viota .f32 (.row 704) 0 0 0, .vrng .f32 (.row 0) 1, .vrng .f32 (.row 0) 2] = true := by
  decide
theorem test_ill_formed_vectors : refused [.vcvt ⟨.bf16, .f32, 0, .rne, false, .row 0, .row 704, 0⟩,
    .vcvtef ⟨.bf16, .f32, 0, .rne, false, .row 0, .row 0, 1⟩, .vmadw .i16 false 0 (.spec 0) (.row 0) (.row 0) 0,
    .vsacc .f32 .rne false false (.row 0) (.row 0) (.row 704) 0, .vshfr ⟨.i16, .row 0, .row 0, .imm 3, 1⟩,
    .vshfc ⟨.f32, .spec 0, .row 0, .reg 3, 1⟩, .vredr ⟨.f32, .sum, .row 0, .row 0, 1⟩, .vtrn .f32 (.row 0) (.row 0) 1,
    .vpart .i32 (.row 0) (.row 0) 63 0, .vcnt .f32 0 (.row 704) 0, .vargm .f32 true 0 (.row 0) 1,
    .frcp ⟨.f32, .rne, .row 0, .row 0, 1⟩, .fdiv .f32 .rne (.row 0) (.row 0) (.row 704) 0] = true := by decide
theorem test_ill_formed_directions : refused [.dnorm .f32 .g2 1 (.row 0) 0, .dnorm .f32 .g2 2 (.row 0) 1,
    .dcvt .f32 .g4 (.row 0) 2 0, .dcvt .f32 .g4 (.spec 0) 4 0, .ddot ⟨.g2, 1, 2, 3, 0⟩, .dscl ⟨.g8, 4, 1, 0⟩, .dscl ⟨.g8, 8, 1, 1⟩,
    .dneg ⟨.g2, 2, 1, 0⟩, .dadd ⟨.g2, 2, 2, 1, 0⟩, .dmix ⟨.g32, 16, 0, 1, 0⟩, .dsim .g2 (.row 0) 2 1 0, .dzt .g16 1 8 0,
    .dgetn ⟨.g2, 1, 1, 0⟩, .dsetn ⟨.g2, 1, 2, 0⟩] = true := by decide
theorem test_ill_formed_memory : refused [.movs 0 7, .movt 0 0x148, .ldv (.spec 0) okMem, .ldv (.row 0) { okMem with rstep := 1 },
    .stv (.row 704) okMem, .lds false .b8 0 { okMem with rstep := 1 }, .sts .b8 0 { okMem with rstep := 1 }, .ldd .g2 1 okMem,
    .std .g2 2 { okMem with rstep := 1 }, .aaddRem false 0 48 okMem, .acasRem false 0 63 okMem, .ldr none 0 48 okMem,
    .str none 0 48 okMem, .shcpy 0 { okMem with rstep := 1 }, .publ 48 .tile okMem, .publ 0 .tile { okMem with rstep := 1 },
    .shcan 0 2, .shqry 0 0 1] = true := by decide
theorem test_ill_formed_matrix_and_vault : refused [.mma { okX with av := .row 704 }, .mmaz { okX with rstep := 1 },
    .mseq ⟨.bf16, .bf16, 0, 0, .none, .none, false, .row 0, 0, 1⟩, .mzero 0 false 2, .mrd ⟨0, .spec 0, 0, false, 0⟩,
    .mwr ⟨0, .row 0, 0, false, 1⟩, .kset false false (.row 704) false, .rd ⟨0, 0, 0, 0, 12288, 0⟩, .wra ⟨0, 0, 0, 0, 16383, 0⟩] = true := by
  decide
def okN : NGrp := ⟨.east, 0, 0, 0⟩
theorem test_ill_formed_streams : refused [.sdrv okN .none, .sdrv { okN with width := 5 } (.scalar 0), .sdrv { okN with rstep := 1 } (.scalar 0),
    .sdrv okN (.row (.row 704)), .stap { okN with rstep := 2 } .none (.abs 0), .stap okN (.row (.spec 0)) (.abs 0),
    .sfwd okN (.scalar 0) (.abs 0) .east 0, .sfwd okN .none (.reg 1 0) .east 0, .seos { okN with rstep := 2 },
    .sred okN .none (.abs 0) .east 0 0, .sred okN (.spad 0) (.reg 1 0) .east 0 0, .sred okN (.spad 0) (.abs 0) .east 0 3] = true := by
  decide
theorem test_well_formed : ([.barw true true 5 47, .bari 47 .plot 0 5 4 63, .lease 16 0 0, .vadd okV, .vadd { okV with fmt := .f32, rm := .rz },
    .vadd { okV with a := .spec 0, b := .col 43 0 }, .vpart .i32 (.row 0) (.row 0) 62 0, .movs 0 0x147, .dadd ⟨.g32, 32, 0, 32, 7⟩,
    .rd ⟨3, 15, 31, 63, 12287, 255⟩, .sred ⟨.west, 15, 4, 2⟩ (.spad 0) (.age 7) .north 3 2] : List Instr).all (wellFormed 44) = true := by
  decide

/-! ### Words that the spec writes out, with their stop bits (02 R44, 03 R75, chapters 14 and 23), and words it refuses -/

theorem test_spec_words :
    (reads .v (0x18080180, 0x00500100, .vcvt ⟨.bf16, .f32, 1, .rne, false, .row 12, .row 40, 0⟩) &&
     reads .v (0x26600280, 0x00100018, .vshfr ⟨.i16, .row 20, .row 8, .imm 3, 0⟩) &&
     reads .v (0x166003C0, 0x00298028, .vmadw .i16 false 0 (.row 30) (.row 20) (.spec 5) 0) &&
     reads .v (0x166003C0, 0x00298053, .vmadw .i16 false 0 (.row 30) (.row 20) (.spec 10) 3) &&
     reads .c (0x08006005, 0, .loop 6 5)) = true := by decide
/-- The reason a word is refused with. -/
def refusal (cl : Cls) (w1 w2 : Word32) : Option Nat :=
  match decodeOp 44 cl w1 w2 with
  | .ok _ => none
  | .error r => some r
theorem test_refused_words :
    -- the D words of 03 R75: an unassigned opcode, and a nonzero bit in [12:6]
    refusal .d 0x0A4CE000 0 = some 0 ∧ refusal .d 0x024CE040 0 = some 1 ∧
    -- a stepped PREA, a scratchpad granule of 12,288 (04 R89, R103)
    refusal .d 0x07000001 0 = some 7 ∧ refusal .d 0x024CE000 0x60000000 = some 1 ∧
    -- a predicate of the S class with bits [5:4] set, an id that no special register has, rounding code 7 (13 R242)
    refusal .s 0x26480000 0 = some 1 ∧ refusal .s 0x30000007 0 = some 2 ∧
    -- a VMIN of format 23, a special view as destination, a view beyond the panels (02 R48, 14 R255)
    refusal .v 0x05B80000 0 = some 3 ∧ refusal .v 0x05060000 0 = some 2 ∧ refusal .v 0x05000000 0x05800000 = some 2 := by
  decide

/-! ### Hypotheses that are met: small states, one step -/

/-- Tile 0 in sc 5 of a running plot of one tile, at a bundle of four words at 0x40. -/
def base (f : Tile → Tile) : State :=
  { State.reset with
    pulsed := true
    plots := [(0, { runningPlot bareTimetable 0 with scyc := 5 })]
    tiles := [(0, f { Tile.reset with plot := some 0 })]
    cur := ⟨0, 0, 0x40, 0, 0x50⟩ }
/-- Scalar registers. -/
def sc (l : Store 64) (t : Tile) : Tile := { t with regs := { t.regs with sc := l } }
/-- The plot of base. -/
def plot (s : State) (f : Plot → Plot) : State := s.mapPlot 0 f
/-- The outcome is a next state t. -/
def gives (o : Host.Outcome State Fault Refusal) (t : State) : Bool :=
  match o with
  | .next s => decide (s = t)
  | _ => false
/-- The outcome is a next state with a property. -/
def after (o : Host.Outcome State Fault Refusal) (p : State → Bool) : Bool :=
  match o with
  | .next s => p s
  | _ => false

/-! #### Scalar slots -/

def scalars : State := base (sc [(1, 7), (2, 0xFFFFFFFFFFFFFFFE), (3, 0x3F800000), (4, 0x7FC00000), (5, 70)])

theorem test_meets_IntegerResultsOfScalarSlots : scalars.down = false ∧
    integerRow (issuer scalars) (.mulh 3 2 1) = some (3, 3, 0xFFFFFFFFFFFFFFFF) ∧
    gives (exec (.mulh 3 2 1) scalars) (begun scalars [(3, (issuer scalars).wScalar 3 0xFFFFFFFFFFFFFFFF)]) = true ∧
    integerRow (issuer scalars) (.rol 0 2 5) = some (0, 1, 0xFFFFFFFFFFFFFFBF) ∧
    gives (exec (.rol 0 2 5) scalars) (begun scalars [(1, (issuer scalars).wScalar 0 0xFFFFFFFFFFFFFFBF)]) = true := by
  decide
theorem test_clz_of_zero : gives (exec (.clz 1 0) scalars) (begun scalars [(1, (issuer scalars).wScalar 1 64)]) = true := by
  decide
theorem test_meets_PredicateResultsOfScalarSlots : scalars.down = false ∧
    predicateRow (issuer scalars) (.cmplt 0 2 1) = some (0, true) ∧
    predicateRow (issuer scalars) (.cmpltu 15 2 1) = some (15, false) ∧
    gives (exec (.cmplt 15 2 1) scalars) (begun scalars [(1, .pred 15 true)]) = true := by decide
theorem test_meets_FloatResultsOfScalarSlots : scalars.down = false ∧
    (floatRow (issuer scalars) (.fadd 6 3 3 .rne)).map (fun r => (r.1, r.2.1, r.2.2 .rne)) = some (6, .rne, 0x40000000, fNone) ∧
    gives (exec (.fadd 6 3 3 .rne) scalars) (begun scalars [(4, (issuer scalars).wScalar 6 0x40000000), (4, .flags 0)]) = true ∧
    (floatRow (issuer scalars) (.fmul 6 3 3 .sr)).isSome = true ∧
    gives (exec (.fmul 6 3 3 .sr) scalars) (trapped scalars (rescombo 0 0)) = true := by decide

/-! #### The C slot -/

theorem test_meets_BranchesAndJumpsSetTheNextAddress :
    jumpOk ((issuer (base (sc [(63, 0xFFFFFC)]))).rs 63) ∧ ¬ jumpOk ((issuer (base (sc [(63, 0x1000000)]))).rs 63) ∧
    ¬ jumpOk ((issuer (base (sc [(1, 2)]))).rs 1) := by
  unfold jumpOk
  decide
theorem test_branch_below_zero : gives (exec (.br 0xFFFFE0) (base id))
    (steered (fun q => { q with pc := 0xFFFFC0 }) (base id) []) = true := by decide
def looped (n : Nat) : State := base (fun t => { sc [(1, 4)] t with
  seq := { t.seq with loops := (List.range n).map (fun i => ⟨0x50, 0x100 * (i + 1), 2, 0, none⟩) } })
theorem test_meets_LoopHeadsPushAndLeavePops :
    loopOk (looped 5) 4 true ∧ ¬ loopOk (looped 5) 3 true ∧ ¬ loopOk (looped 6) 4 true ∧ loopOk (looped 6) 4 false ∧
    (((issuer (looped 5)).rs 1).setWidth 32 ≠ (0 : BitVec 32)) ∧ (((issuer (looped 6)).rs 2).setWidth 32 = (0 : BitVec 32)) ∧
    (issuer (looped 1)).seq.loops = [⟨0x50, 0x100, 2, 0, none⟩] ∧ (issuer (looped 0)).seq.loops = [] := by
  refine ⟨⟨by decide, by decide, ?_⟩, fun h => absurd h.1 (by decide), fun h => absurd (h.2.1 rfl) (by decide),
    ⟨by decide, by decide, ?_⟩, by decide, by decide, by decide, by decide⟩ <;>
  · intro e h
    cases h
    decide
theorem test_leave_pops : gives (exec .leave (looped 1))
    (steered (fun q => { q with pc := 0x100, skip := true, loops := [] }) (looped 1) []) = true := by decide

def walking (j : BitVec 32) : State :=
  plot (base (fun t => { t with seq := { t.seq with walk := sset 0 [] 3 j } }))
    (fun pl => { pl with tt := { pl.tt with walks := [0, 0, 0, 0x00000002000000020000000300000002] } })
theorem test_meets_WalknGivesTheMixedRadixIndices :
    (walkPlace (walking 23) 0 .plot).1 + (sget 0 (issuer (walking 23)).seq.walk 3).toNat * (walkPlace (walking 23) 0 .plot).2 = 23 ∧
    (walkRec (walking 23) 0 3).extractLsb' 0 32 = 2 ∧ (walkRec (walking 23) 0 3).extractLsb' 32 32 = 3 ∧
    (walkRec (walking 23) 0 3).extractLsb' 64 32 = 2 ∧ (walkRec (walking 23) 0 3).extractLsb' 96 32 = 2 ∧
    23 < 2 * 3 * 2 * 2 ∧
    gives (exec (.walkn 7 3 .plot) (walking 23)) (steered (nextWalk 3) (walking 23)
      [(1, .scalar false 56 1), (1, .scalar false 57 2), (1, .scalar false 58 1), (1, .scalar false 59 1),
       (1, .pred 7 true)]) = true ∧
    gives (exec (.walkn 7 3 .plot) (walking 24)) (steered (nextWalk 3) (walking 24) [(1, .pred 7 false)]) = true := by
  decide +kernel
theorem test_meets_WaitOperationsLeaveTheTileWaiting :
    (base id).env.now < (6 : BitVec 48).toNat ∧ (5 : BitVec 48).toNat ≤ (base id).env.now ∧
    ((issuer scalars).rs 0 + (0xFFFF8 : BitVec 20).signExtend 64).toNat % 8 = 0 ∧
    ((issuer scalars).rs 5 + (0 : BitVec 20).signExtend 64).toNat % 4 ≠ 0 ∧
    gives (exec (.align 6) (base id)) (steered (waiting (.align 6)) (base id) []) = true ∧
    gives (exec (.align 5) (base id)) (trapped (base id) (trapAt 0x0B 0x40 0xA4 5)) = true := by decide
def windowed : State := base (fun t => { t with wins := [⟨true, 3, 0, 0x1000⟩] })
theorem test_meets_BarrierSetUpAndArrival :
    (base id).plotOf 0 = some { runningPlot bareTimetable 0 with scyc := 5 } ∧
    (2 ^ (0 : BitVec 3).toNat ≤ 1) ∧ (1 < 2 ^ (1 : BitVec 3).toNat) ∧
    ((bariF .tile 1 0 0 0).changes ((issuer windowed).bar 3) && (issuer windowed).governs 3) = false ∧
    (bariF .plot 1 0 0 0).changes ((issuer windowed).bar 3) = true ∧ (issuer windowed).governs 3 = true ∧
    gives (exec (.bari 3 .plot 1 0 0 0) windowed) (trapped windowed (rescombo 3 0)) = true ∧
    (0 ∉ windowed.members 0 3) = False ∧ ((windowed.members 0 3).Nodup) := by decide
theorem test_meets_FenceSaveptMarkAndLease : ((issuer (base id)).plot = some 0) ∧
    (afind (base id).plots 0).map (fun pl => (pl.split, pl.lease.state)) = some (0, 0) ∧
    ((plot (base id) (fun pl => { pl with split := 2 })).plotOf 0).map (·.split) = some 2 := by decide
theorem test_marks_and_leases :
    after (exec (.mark 1 9) (plot scalars (fun pl => { pl with split := 2 }))) (fun t => (t.tile 0).marks == [(3, 9, 7)]) = true ∧
    gives (exec (.lease 16 0x7FFFF 0xFFFFF) scalars) (begun scalars [(1, .lease 16 0x7FFFF 0xFFFFF)]) = true := by decide
def paged : State := base (fun t => { t with seq := { t.seq with ftags := [(2, pageTag 0 0)] } })
theorem test_meets_OverlayOperationBeginsItsLoad : ((issuer paged).frameOf (paged.imageOf 0) 0).isSome = true ∧
    (issuer paged).frameOf (paged.imageOf 0) 1 = none ∧ paged.codePages 0 ≤ 1 ∧
    (issuer (base id)).frameOf ((base id).imageOf 0) 0 = none ∧ 0 < (base id).codePages 0 := by decide
def supTile (t : Tile) : Tile := { t with trap := { t.trap with
  sup := true, tpc := 0x123456, tcause := 0x1FF14, tval := 9, shadowLoops := [⟨1, 2, 3, 4, none⟩] } }
theorem test_meets_TrapSyscAndEret : (issuer (base supTile)).trap.sup = true ∧ (issuer (base id)).trap.sup = false ∧
    after (exec .eret (base supTile)) (fun t => decide ((t.tile 0).trap.sup = false ∧ (t.tile 0).seq.pc = 0x123456 ∧
      (t.tile 0).seq.rep = 0xFF ∧ (t.tile 0).seq.skip = true ∧ (t.tile 0).seq.loops = [⟨1, 2, 3, 4, none⟩])) = true ∧
    gives (exec .eret (base id)) (trapped (base id) (priv 0)) = true := by decide
theorem test_meets_ATrapEntersTheMonitorOrHalts :
    ((base id).tile 0).trap.sup = false ∧ ((base id).tile 0).pend = [] ∧ 0xFFFFFC < 2 ^ 24 ∧ 255 < 2 ^ 8 ∧
    ((base supTile).tile 0).trap.sup = true ∧ ((base supTile).tile 0).pend = [] := by decide
theorem test_trap_enters_the_monitor : (((base id).takeTrap 0 ⟨0x14, 0xABCD, false⟩ 0xFFFFFC 255).tile 0).trap.tcause = 0xFF14 ∧
    (((base id).takeTrap 0 ⟨0x14, 0xABCD, false⟩ 0xFFFFFC 255).tile 0).trap.tpc = 0xFFFFFC ∧
    (((base id).takeTrap 0 ⟨0x14, 0xABCD, false⟩ 0xFFFFFC 255).tile 0).trap.sup = true ∧
    (((base supTile).takeTrap 0 ⟨0x14, 0xABCD, false⟩ 0x40 0).tile 0).trap.halted = true := by decide

/-! #### Vector slots, functions and directions -/

/-- Vector rows. -/
def rows (l : Store 2048) (t : Tile) : Tile := { t with regs := { t.regs with vrow := l } }
def vectors : State := base (fun t => sc [(5, 3), (6, 0xFFFF0000)] (rows [(1, 0x0000000500000000FFFFFFFF), (2, 3)] t))
/-- Cell c of the row that an operation writes first. -/
def firstCell (o : Host.Outcome State Fault Refusal) (c x : Nat) : Bool :=
  after o (fun t => (t.tile 0).pend.head?.map (fun p => match p.act with
    | .cells _ _ v => rowCell v c
    | _ => 0) == some x)

theorem test_meets_ElementwiseOperationsWriteTheirLanes :
    (elementRow (issuer vectors) (.vadd ⟨.f32, .dyn, true, .col 47 63, .spec 5, .row 767, 0⟩)).map (fun o => (o.lat, o.ok)) = some (2, true) ∧
    (elementRow (issuer vectors) (.vadd ⟨.q15, .rne, false, .row 0, .row 1, .row 2, 0⟩)).map (fun o => o.ok) = some false ∧
    (elementRow (issuer vectors) (.fdiv .f32 .sr (.row 0) (.row 1) (.row 2) 0)).map (fun o => o.ok) = some false ∧
    gives (exec (.vadd ⟨.q15, .rne, false, .row 0, .row 1, .row 2, 0⟩) vectors) (trapped vectors (rescombo 0 0)) = true := by
  decide +kernel
theorem test_meets_IntegerVectorCellsHoldTheirResults :
    firstCell (exec (.vadd ⟨.u32, .rne, false, .row 3, .row 1, .row 2, 0⟩) vectors) 0 2 = true ∧
    firstCell (exec (.vmulh ⟨.u32, .row 3, .row 1, .row 2, 0⟩) vectors) 0 2 = true ∧
    firstCell (exec (.vsub ⟨.i32, .rne, false, .row 3, .row 2, .row 1, 0⟩) vectors) 0 4 = true := by decide +kernel
theorem test_meets_AccumulationRandomAndConversions :
    Fmt.isMadw .i4 = true ∧ (7 : BitVec 3).toNat < perCell .i4 ∧ perCell .i16 = 2 ∧
    viewIsRow (.spec 5) = false ∧ viewIsSpec (.spec 5) = true ∧
    firstCell (exec (.vmadw .i16 false 0 (.row 1) (.row 1) (.row 2) 0) vectors) 0 0xFFFFFFFC = true ∧
    after (exec (.vsacc .f32 .rz true true (.row 0) (.row 1) (.spec 5) 0) vectors) (fun t => (t.tile 0).pend.length == 2) = true ∧
    after (exec (.vrng .u32 (.row 9) 0) vectors) (fun t => (t.tile 0).pend.length == 2) = true := by decide +kernel
def narrowing : VCvt := ⟨.bf16, .f32, 1, .sr, false, .row 4, .row 1, 0⟩
theorem test_meets_conversions : cvtParts .f32 .bf16 = 2 ∧ (floatOf .bf16).isSome = true ∧ narrowing.a ≠ narrowing.dst ∧
    viewIsRow narrowing.a = true ∧ (issuer vectors).rmAny narrowing.rm = .sr ∧
    after (exec (.vcvtef narrowing) vectors) (fun t => (t.tile 0).pend.length == 4) = true ∧
    after (exec (.vcvt ⟨.f32, .bf16, 0, .rne, false, .row 4, .spec 5, 0⟩) vectors) (fun t => (t.tile 0).pend.length == 2) = true := by
  decide +kernel
theorem test_meets_cvtOk : cvtOk narrowing := by
  unfold cvtOk
  decide
def rotating : VShift := ⟨.i16, .row 4, .row 1, .imm 127, 0⟩
theorem test_meets_PanelAxisOperationsMoveElements :
    (rowAxisRow (.vrotr rotating)).isSome = true ∧ Fmt.isAny rotating.fmt = true ∧
    viewRowNo (.row 766) + 1 < 16 * (issuer vectors).panels ∧ amtAbove (perRow .i16) (.imm 127) = false ∧
    amtAbove (perRow .f32) (.imm 64) = false ∧ amtAbove (perRow .f32) (.imm 65) = true ∧
    firstCell (exec (.vrotr rotating) vectors) 0 0xFFFF0000 = true ∧
    firstCell (exec (.vshfr ⟨.f32, .row 4, .row 1, .imm 64, 0⟩) vectors) 0 3 = true := by decide +kernel
def panels (k : BitVec 7) (a : BitVec 10) : VShift := ⟨.f32, .row 752, .row a, .imm k, 0⟩
theorem test_meets_colAxisOk : colAxisOk (issuer vectors) (panels 16 736) 2 16 ∧ colAxisOk (issuer vectors) (panels 127 752) 1 127 ∧
    ¬ colAxisOk (issuer vectors) (panels 17 736) 2 16 ∧ ¬ colAxisOk (issuer vectors) (panels 0 752) 2 16 := by
  unfold colAxisOk
  decide
theorem test_panel_shift : (colAxisRow (.vshfc (panels 1 0))).isSome = true ∧
    firstCell (exec (.vshfc (panels 1 0)) vectors) 2 5 = true ∧ firstCell (exec (.vbcc (panels 18 0)) vectors) 0 3 = true ∧
    firstCell (exec (.vtrn .f32 (.row 0) (.row 0) 0) vectors) 2 3 = true := by decide +kernel
theorem test_meets_ReductionsCountsAndArgmax :
    viewIsPanel (.row 0) = true ∧ viewIsPanel (.row 1) = false ∧
    firstCell (exec (.vredr ⟨.u32, .sum, .row 9, .row 1, 0⟩) vectors) 0 4 = true ∧
    firstCell (exec (.vredc ⟨.u32, .sum, .row 9, .row 0, 0⟩) vectors) 0 2 = true ∧
    firstCell (exec (.vpart .i32 (.row 766) (.row 1) 62 0) vectors) 1 2 = true ∧
    gives (exec (.vcnt .i32 7 (.row 1) 0) vectors) (begun vectors [(6, (issuer vectors).wScalar 7 2)]) = true ∧
    gives (exec (.vargm .u32 true 7 (.row 1) 0) vectors) (begun vectors [(6, (issuer vectors).wScalar 7 1), (6, .flags 0)]) = true ∧
    gives (exec (.vargm .i32 true 7 (.row 1) 0) vectors)
      (begun vectors [(6, (issuer vectors).wScalar 7 0xFFFFFFFF00000000), (6, .flags 0)]) = true ∧
    after (exec (.vargm .f32 false 7 (.row 1) 0) vectors) (fun t => (t.tile 0).pend.length == 2) = true := by decide +kernel
theorem test_meets_ScalarDivisionsGiveTheirResult :
    divisionRow (issuer (base (sc [(1, 0x8000000000000000), (2, 0xFFFFFFFFFFFFFFFF)]))) (.sdiv ⟨3, 1, 2, 0⟩) =
      some (⟨3, 1, 2, 0⟩, 0x8000000000000000) ∧
    divisionRow (issuer vectors) (.srem ⟨3, 5, 0, 0⟩) = some (⟨3, 5, 0, 0⟩, 3) ∧
    gives (exec (.sdiv ⟨3, 1, 2, 0⟩) (base (sc [(1, 0x8000000000000000), (2, 0xFFFFFFFFFFFFFFFF)])))
      (begun (base (sc [(1, 0x8000000000000000), (2, 0xFFFFFFFFFFFFFFFF)]))
        [(12, .scalar false 3 0x8000000000000000)]) = true ∧
    gives (exec (.sremu ⟨3, 5, 0, 0⟩) vectors) (begun vectors [(12, .scalar false 3 3)]) = true := by decide +kernel
def directions : State := base (fun t => sc [(5, 0x8000), (6, 0x20000)] { t with
  regs := { t.regs with dir := [(0, 0x40004000), (1, 0x4000)], norm := [(0, 0), (1, 0x10000)] } })
theorem test_meets_DirectionOperationsGiveTheirResults :
    (groupRow (issuer directions) (.dmix ⟨.g1, 0, 1, 6, 0⟩)).map (fun o => (o.d, o.k, o.lc, o.ln)) = some (0, 1, 10, 12) ∧
    (directionRow (issuer directions) (.dzt .g32 0 32 0)) = some [(2, .pred 0 true)] ∧
    runReason (issuer directions) .f32 32 (.row 704) = none ∧ runReason (issuer directions) .f32 32 (.row 705) = some 3 ∧
    runReason (issuer directions) .bf16 32 (.row 736) = none ∧ runReason (issuer directions) .i32 1 (.row 0) = some 0 ∧
    runReason (issuer directions) .f16 1 (.col 0 0) = some 3 ∧
    (0 : BitVec 6).toNat + 16 * Grp.size .g4 ≤ 64 ∧ (48 : BitVec 6).toNat + 16 * Grp.size .g1 ≤ 64 := by decide +kernel
theorem test_direction_scalars :
    gives (exec (.dgetn ⟨.g1, 7, 1, 0⟩) directions) (begun directions [(2, .scalar false 7 0x10000)]) = true ∧
    gives (exec (.dsetn ⟨.g2, 2, 5, 0⟩) directions) (begun directions [(1, .norm 2 0x8000)]) = true ∧
    gives (exec (.dcvt .i32 .g1 (.row 0) 0 0) directions) (trapped directions (rescombo 0 0)) = true := by decide +kernel

/-! #### Special registers and the M slots -/

theorem test_meets_SpecialRegistersAreReadAndWritten :
    (svId 0x024 ∧ svId 0x100 ∧ ¬ svId 0x0FF) ∧ (issuer (base supTile)).trap.sup = true ∧
    (issuer (base id)).trap.sup = false ∧ movtWrites false 0x010 ∧ movtWrites false 0x014 ∧ ¬ movtWrites false 0x020 ∧
    movtWrites true 0x024 ∧ movtWrites true 0x100 ∧ ¬ movtWrites true 0x015 ∧
    specialRow (base supTile) 0 0x021 = 0x123456 ∧ specialId 0x147 = true ∧ specialId 0x007 = false := by
  refine ⟨?_, by decide, by decide, ?_⟩
  · unfold svId
    decide
  · unfold movtWrites
    decide
theorem test_movs_movt : gives (exec (.movs 7 0x021) (base supTile)) (begun (base supTile) [(1, .scalar false 7 0x123456)]) = true ∧
    gives (exec (.movs 7 0x024) (base id)) (trapped (base id) (priv 0)) = true ∧
    gives (exec (.movt 1 0x020) scalars) (begun scalars []) = true ∧
    gives (exec (.movt 1 0x014) scalars) (begun scalars [(1, .special 0x14 7)]) = true := by decide +kernel
/-- s1 = 0xC0000, s2 = 0xBFF00, s3 = 3; bytes 1 to 8 stand at scratchpad address 0. -/
def loads : State :=
  { base (sc [(1, 0xC0000), (2, 0xBFF00), (3, 3)]) with
    mem := [(2 ^ 48, 1), (2 ^ 48 + 1, 0x82), (2 ^ 48 + 7, 0x80)] }
theorem test_meets_LoadsAndStoresUseTheirPortSc :
    inSpad (eaOf loads ⟨2, 0, 0, 0⟩) 64 256 ∧ ¬ inSpad (eaOf loads ⟨2, 0x40, 0, 0⟩) 64 256 ∧ ¬ inSpad (eaOf loads ⟨3, 0, 0, 0⟩) 2 2 ∧
    inSpad (eaOf loads ⟨2, 0xF8, 0, 0⟩) 8 8 ∧
    (∃ rs tags, readable loads (portsOf 5 false 0 2) 0 2 rs tags) ∧ (∃ rs, placed loads (portsOf 9 true 0 256) rs) := by
  unfold inSpad
  exact ⟨by decide, by decide, by decide, by decide, ⟨_, _, rfl, by decide +kernel, rfl⟩, ⟨_, rfl⟩⟩
theorem test_lds_extends_its_sign :
    after (exec (.lds true .b16 7 ⟨0, 0, 0, 0⟩) loads) (fun t => (t.tile 0).pend.head?.map (·.act) ==
      some (.scalar false 7 0xFFFFFFFFFFFF8201)) = true ∧
    after (exec (.lds false .b64 7 ⟨0, 0, 0, 0⟩) loads) (fun t => (t.tile 0).pend.head?.map (·.act) ==
      some (.scalar false 7 0x8000000000008201)) = true ∧
    gives (exec (.lds false .b16 7 ⟨3, 0, 0, 0⟩) loads) (trapped loads (alignf 0 3)) = true ∧
    gives (exec (.ldv (.row 0) ⟨1, 0, 0, 0⟩) loads) (trapped loads (alignf 0 0xC0000)) = true := by decide +kernel
/-- Rows 2 and 3: data, and indices 0, null, 2, then 0 for every other lane. -/
def lanes : State := base (rows [(2, 0x000000070000000600000005), (3, 0x000000028000000000000000)])
theorem test_meets_GatherAndScatterFollowTheIndexRow :
    pairOk lanes 766 ∧ ¬ pairOk lanes 3 ∧ (lanesOf lanes 2 0).length = 63 ∧ (lanesOf lanes 2 0).head? = some (0, 0) ∧
    (∀ l ∈ lanesOf lanes 2 0, inSpad l.2 4 4) ∧ (∃ l ∈ lanesOf lanes 2 0xBFFFC, ¬ inSpad l.2 4 4) := by
  unfold pairOk inSpad
  decide +kernel
theorem test_meets_lanes_placed : (∃ rs, placed lanes (lanePorts 6 false ((lanesOf lanes 2 0).take 1)) rs) :=
  ⟨_, rfl⟩
theorem test_gather_of_null_lanes :
    after (exec (.ldg (.row 2) ⟨0, 0, 0, 0⟩) (base (rows [(3, BitVec.allOnes 2048)])))
      (fun t => (t.tile 0).pend.length == 1) = true ∧
    gives (exec (.stg (.row 3) ⟨0, 0, 0, 0⟩) lanes) (trapped lanes (rescombo 3 0)) = true := by decide +kernel
theorem test_meets_DirectionLoadsAndStores :
    inSpad (eaOf loads ⟨2, 0, 0, 0⟩) 64 (256 * Grp.size .g1) ∧ ¬ inSpad (eaOf loads ⟨2, 0, 0, 0⟩) 64 (256 * Grp.size .g2) ∧
    (∃ rs, placed loads (memberPorts 9 true 1 0) rs) ∧ (∃ rs tags, readable loads (memberPorts 5 false 2 0) 0 256 rs tags) := by
  unfold inSpad
  exact ⟨by decide, by decide, ⟨_, rfl⟩, ⟨_, _, rfl, by decide +kernel, rfl⟩⟩
theorem test_direction_moves :
    after (exec (.std .g2 0 ⟨0, 0, 0, 0⟩) loads) (fun t => (t.tile 0).pend.length == 2) = true ∧
    after (exec (.ldd .g2 0 ⟨0, 0, 0, 0⟩) loads) (fun t => (t.tile 0).pend.length == 1) = true ∧
    gives (exec (.ldd .g2 0 ⟨2, 0, 0, 0⟩) loads) (trapped loads (alignf 0 0xBFF00)) = true := by decide +kernel
theorem test_meets_WeightBufferLoadsHoldTheirHalf :
    ((issuer loads).rs 3).toNat = 3 ∧ 0 + 3 ≤ 1024 ∧ inSpad (eaOf loads ⟨2, 0x40, 0, 0⟩) 64 (64 * 3) ∧
    ¬ inSpad (eaOf loads ⟨2, 0x80, 0, 0⟩) 64 (64 * 3) ∧ 1024 < ((issuer loads).rs 1).toNat + 3 ∧
    Nat.max (issuer loads).mx.load1 (issuer loads).mx.half1 ≤ loads.env.now ∧
    (∃ rs, placed loads ((List.range 3).map (fun j => ⟨6 + j / 4, false, 0xBFF40 / 64 + j⟩)) rs) := by
  unfold inSpad
  exact ⟨by decide, by decide, by decide, by decide, by decide, by decide, ⟨_, rfl⟩⟩
def loading : State := loads.mapTile 0 (fun t => { t with mx := { t.mx with load1 := 6 } })
theorem test_ldwb : loading.env.now < Nat.max (issuer loading).mx.load1 (issuer loading).mx.half1 ∧
    gives (exec (.ldwb true 3 0 ⟨0, 0, 0, 0⟩) loading) (trapped loading (busy 0x42 0)) = true ∧
    after (exec (.ldwb false 3 0 ⟨0, 0, 0, 0⟩) loading) (fun t => (t.tile 0).mx.load0 == 7) = true ∧
    gives (exec (.ldwb true 0 0 ⟨0, 0, 0, 0⟩) loads) (trapped loads (rescombo 3 0)) = true := by decide +kernel
theorem test_meets_LocalAtomicsClaimAndReadTheirWord :
    (atomRow (.afadd true 1 2 ⟨0, 0, 0, 0⟩)).map (·.1) = some .fadd ∧ (atomRow (.acas true 1 2 ⟨0, 8, 0, 0⟩)).map (·.1) = some .cas ∧
    inSpad (eaOf loads ⟨2, 0xF8, 0, 0⟩) (wide true) (wide true) ∧ ¬ inSpad (eaOf loads ⟨2, 0xFC, 0, 0⟩) (wide true) (wide true) ∧
    inSpad (eaOf loads ⟨2, 0xFC, 0, 0⟩) (wide false) (wide false) ∧
    (∃ rs, placed loads [⟨9, false, 0⟩, ⟨10, true, 0⟩] rs) := by
  unfold inSpad
  exact ⟨by decide, by decide, by decide, by decide, by decide, ⟨_, rfl⟩⟩
theorem test_local_atomics :
    after (exec (.acas true 1 2 ⟨0, 8, 0, 0⟩) loads) (fun t => (t.tile 0).pend.length == 2) = true ∧
    gives (exec (.afadd true 1 2 ⟨0, 0, 0, 0⟩) loads) (trapped loads (rescombo 0 0)) = true ∧
    gives (exec (.aadd true 1 2 ⟨2, 0xFC, 0, 0⟩) loads) (trapped loads (alignf 0 0xBFFFC)) = true := by decide +kernel
def busyDyn (n : Nat) : State := loads.mapTile 0 (fun t => { t with
  dyn := List.replicate n ⟨0, .ldr, 0, 0, 0, 0, 0, 0, none, none, 0, 0, false, 0, none⟩ })
theorem test_meets_DynamicAccessesAreMade :
    ((issuer loads).rs 0).toNat = 0 ∧ inSpad 0 64 64 ∧ (remoteRow (.aaddRem true 0 47 ⟨0, 8, 0, 0⟩)).isSome = true ∧
    (vaOf loads ⟨0, 8, 0, 0⟩).toNat % wide true = 0 ∧ (vaOf loads ⟨0, 0xFFFC0, 0, 0⟩).toNat % 64 = 0 ∧
    (vaOf loads ⟨0, 8, 0, 0⟩).toNat % 64 ≠ 0 ∧ (issuer (busyDyn 63)).dyn.length < 64 ∧ 64 ≤ (issuer (busyDyn 64)).dyn.length ∧
    (∃ rs tags, readable (busyDyn 63) (portsOf 5 false 0 64) 0 64 rs tags) ∧
    (∃ rs, placed (busyDyn 63) (portsOf 9 false 0 64) rs) := by
  unfold inSpad
  exact ⟨by decide, by decide, by decide, by decide, by decide, by decide, by decide +kernel, by decide +kernel,
    ⟨_, _, rfl, by decide +kernel, rfl⟩, ⟨_, rfl⟩⟩
theorem test_dynamic_accesses :
    after (exec (.aaddRem true 0 47 ⟨0, 8, 0, 0⟩) (busyDyn 63)) (fun t => (t.tile 0).dyn.length == 64 &&
      (t.tile 0).dyn.getLast?.map (fun d => (d.x, d.bar)) == some (0x8000000000008201, 47)) = true ∧
    gives (exec (.ldr none 0 1 ⟨0, 0, 0, 0⟩) (busyDyn 64)) (trapped (busyDyn 64) (busy 0x41 0)) = true ∧
    gives (exec (.str none 0 1 ⟨0, 8, 0, 0⟩) loads) (trapped loads (alignf 0 8)) = true := by decide +kernel
/-- A descriptor of one run of 64 bytes from 0x1000 to 0x2000 with barrier 7, at scratchpad address 0. -/
def copying : State :=
  { base (sc [(1, 1)]) with mem := Memory.write [] (2 ^ 48) (leBytes 64 (7 * 2 ^ 368 + 64 * 2 ^ 128 + 0x2000 * 2 ^ 64 + 0x1000)) }
def aCopy : Copy := ⟨1, 0, some 0, 0, 0, 0, 7, 5, 0, 7, .rne, 0, 0, [], 0, false, false, false, 0, 0, 0, none, 0⟩
def copied (n : Nat) : State := { copying with clusters := [(0, { Cluster.reset with copies := List.replicate n aCopy })] }
theorem test_meets_ShuttleCommandsReachTheQueue :
    inSpad (((issuer copying).rs 0).toNat + 0) 64 64 ∧ ¬ inSpad (((issuer copying).rs 1).toNat + 0) 64 64 ∧
    descCheck (BitVec.ofNat 512 (leNat (bytesAt copying 0 64))) 0 false = none ∧
    ((copied 15).copiesOf 0).length < 16 ∧ 16 ≤ ((copied 16).copiesOf 0).length ∧
    (∃ rs tags, readable (copied 15) (portsOf 5 false 0 64) 0 64 rs tags) ∧
    (∃ cl c, (copied 1).findCopy 0 (((issuer (copied 1)).rs 1).setWidth 32) = some (cl, c)) ∧
    copying.findCopy 0 (((issuer copying).rs 1).setWidth 32) = none := by
  unfold inSpad
  exact ⟨by decide, by decide, by decide +kernel, by decide +kernel, by decide +kernel,
    ⟨_, _, rfl, by decide +kernel, rfl⟩, ⟨_, _, rfl⟩, by decide +kernel⟩
theorem test_shuttle_commands :
    after (exec (.shcpy 0 ⟨9, 0, 0, 0⟩) (copied 15)) (fun t => (t.cluster 0).copies.length == 16) = true ∧
    gives (exec (.shcpy 0 ⟨9, 0, 0, 0⟩) (copied 16)) (trapped (copied 16) (busy 0x40 0)) = true ∧
    after (exec (.shcan 1 0) (copied 1)) (fun t => (t.cluster 0).copies.head?.map (·.cancelled) == some true) = true ∧
    gives (exec (.shqry 9 1 0) (copied 1)) (begun (copied 1) [(6, .scalar false 9 0x4000000000000000)]) = true := by
  decide +kernel

/-! #### The X, K, D and N slots -/

def engine (f : Mx → Mx) : State := base (fun t => { t with mx := f t.mx })
def anMma : XMma := ⟨.f32, .f32, 7, 0, .none, .none, false, .row 704, false, 896, false, 0⟩
theorem test_meets_matOk : matOk (issuer (engine id)) anMma := by
  unfold matOk
  decide
theorem test_meets_MatrixOperationsStart :
    (issuer (engine id)).mx.array ≤ (engine id).env.now ∧ halfLoad (issuer (engine id)) anMma.half ≤ (engine id).env.now ∧
    (issuer (engine id)).regs.accMode.getLsbD 7 = pairI32 .f32 .f32 ∧
    (engine (fun m => { m with array := 6 })).env.now < (issuer (engine (fun m => { m with array := 6 }))).mx.array ∧
    (issuer (engine (fun m => { m with flight := [(7, 6)] }))).regs.accMode.getLsbD 7 ≠ pairI32 .i8 .i8 ∧
    (engine (fun m => { m with load0 := 6 })).env.now < halfLoad (issuer (engine (fun m => { m with load0 := 6 }))) false := by
  decide
theorem test_matrix_start :
    after (exec (.mma anMma) (engine id)) (fun t => (t.tile 0).mx.array == 5 + occupancy .f32 .f32 .none) = true ∧
    after (exec (.mmaz anMma) (engine id)) (fun t => (t.tile 0).pend.length == 1) = true ∧
    gives (exec (.mma anMma) (engine (fun m => { m with array := 6 })))
      (trapped (engine (fun m => { m with array := 6 })) (busy 0x43 0)) = true ∧
    gives (exec (.mma anMma) (engine (fun m => { m with load0 := 6 })))
      (trapped (engine (fun m => { m with load0 := 6 })) (busy 0x46 0)) = true := by decide +kernel
def anI8 : XMma := { anMma with fa := .i8, fb := .i8 }
theorem test_matrix_modes :
    flying (issuer (engine (fun m => { m with flight := [(7, 6)] }))) 7 5 ∧ matOk (issuer (engine id)) anI8 ∧
    gives (exec (.mma anI8) (engine id)) (trapped (engine id) (busy 0x45 7)) = true ∧
    gives (exec (.mmaz anI8) (engine (fun m => { m with flight := [(7, 6)] })))
      (trapped (engine (fun m => { m with flight := [(7, 6)] })) (busy 0x44 7)) = true := by
  unfold flying matOk
  decide +kernel
/-- Two steps: NSTEP 1 in bits 44 to 33. -/
def anMseq : XSeq := ⟨.f32, .f32, 0, 0, .none, .none, false, .row 0, 1, 0⟩
def sequenced (w : BitVec 64) (f : Mx → Mx) : State := base (fun t => sc [(1, w)] { t with mx := f t.mx })
theorem test_meets_MseqStartsItsSteps :
    ((issuer (sequenced 0x200000000 id)).rs 1).toNat / 2 ^ 33 % 2 ^ 12 + 1 = 2 ∧ matCombo .f32 .f32 .none = none ∧
    (∀ i < 2, matPlace (sequenced 0x200000000 id).env .f32 .none (seqStep anMseq (seqParam 0x200000000) i).arow
      (seqStep anMseq (seqParam 0x200000000) i).acc (seqStep anMseq (seqParam 0x200000000) i).goff = true) ∧
    seqBusy (issuer (sequenced 0x200000000 id)) 5 (pairI32 .f32 .f32)
      ((List.range 2).map (seqStep anMseq (seqParam 0x200000000))) (issuer (sequenced 0x200000000 id)).regs = none ∧
    (0x200000 : BitVec 64).getLsbD 21 = true ∧ (0x200000000000 : BitVec 64).toNat / 2 ^ 45 ≠ 0 := by decide +kernel
theorem test_mseq :
    after (exec (.mseq anMseq) (sequenced 0x200000000 id)) (fun t => (t.tile 0).mx.mseq.isSome &&
      (t.tile 0).mx.array == 5 + 2 * occupancy .f32 .f32 .none) = true ∧
    after (exec (.mseq anMseq) (sequenced 0 id)) (fun t => (t.tile 0).mx.mseq == some ⟨0x40, anMseq, 0, 1, 0⟩ &&
      (t.tile 0).pend.getLast?.map (·.act) == some (.mseqEnd 1)) = true ∧
    gives (exec (.mseq anMseq) (sequenced 0x200000 id)) (trapped (sequenced 0x200000 id) (undef 1 0)) = true ∧
    gives (exec (.mseq anMseq) (sequenced 0 (fun m => { m with array := 6 })))
      (trapped (sequenced 0 (fun m => { m with array := 6 })) (busy 0x43 0)) = true := by decide +kernel
theorem test_meets_AccumulatorMovesAndLatches :
    ¬ flying (issuer (engine id)) 7 5 ∧ ¬ moving (issuer (engine id)) 7 5 ∧
    flying (issuer (engine (fun m => { m with flight := [(7, 6)] }))) 7 5 ∧
    moving (issuer (engine (fun m => { m with moving := [(7, 6)] }))) 7 5 ∧
    ¬ moving (issuer (engine (fun m => { m with moving := [(7, 5)] }))) 7 5 := by
  unfold flying moving
  decide
theorem test_accumulator_moves :
    after (exec (.mzero 7 true 0) (engine id)) (fun t => (t.tile 0).regs.accMode == 0x80) = true ∧
    gives (exec (.mrd ⟨7, .row 0, 63, false, 0⟩) (engine id)) (begun (engine id) [(4, .cells 0 allLanes 0)]) = true ∧
    gives (exec (.mrd ⟨7, .row 0, 63, false, 0⟩) (engine (fun m => { m with moving := [(7, 6)] })))
      (trapped (engine (fun m => { m with moving := [(7, 6)] })) (busy 0x44 7)) = true ∧
    after (exec (.mwr ⟨7, .row 0, 63, false, 0⟩) (engine (fun m => { m with moving := [(7, 6)] })))
      (fun t => aget 0 (t.tile 0).mx.moving 7 == 9) = true := by decide +kernel
theorem test_latches :
    gives (exec (.kset true false (.row 1) false) vectors) (begun vectors [(3, .latch 2 0x0000000500000000FFFFFFFF)]) = true ∧
    gives (exec (.kset true false (.col 1 0) false) vectors) (trapped vectors (rescombo 3 0)) = true ∧
    after (exec (.kone true) vectors) (fun t => (t.tile 0).pend.length == 2) = true := by decide +kernel
/-- Stratum 1 open on rows 16 to 31, its banks at their reset record. -/
def vaulted : State := base (fun t => { t with vault := { t.vault with vwb := [(1, 0x8010)], vwl := [(1, 31)] } })
def opened : State := vaulted.mapTile 0 (fun t => { t with vault := { t.vault with
  banks := [(18, { Bank.reset with state := 1, row := 31 })] } })
theorem test_meets_VaultCommandsChangeTheirRecords :
    commandRow (.act 1 15 15 0) = some (.act, 1, 15, 15) ∧
    dCheck vaulted.env (issuer vaulted).vault .act 1 15 15 = none ∧
    (dCheck vaulted.env (issuer vaulted).vault .act 1 15 16).isSome = true ∧
    (sget 0 (issuer vaulted).vault.vwb 0).getLsbD 15 = false ∧ (sget 0 (issuer vaulted).vault.vwb 1).getLsbD 15 = true ∧
    (sget 0 (issuer vaulted).vault.vwb 1).getLsbD 14 = false ∧ (issuer vaulted).vault.d0 = none ∧
    (issuer vaulted).vault.base 1 + 15 ≤ (issuer vaulted).vault.limit 1 ∧
    (∀ k < 16, (issuer vaulted).vault.bank (16 + k) = Bank.reset) ∧
    dCheck opened.env (issuer opened).vault .prea 1 0 0 = none := by decide +kernel
theorem test_vault_commands :
    after (exec (.act 1 15 15 0) vaulted) (fun t => (t.tile 0).vault.bank 31 == { Bank.reset with state := 1, row := 31, aact := 0 }) = true ∧
    after (exec (.prea 1) opened) (fun t => (t.tile 0).vault.bank 18 == { Bank.reset with apre := 0 }) = true ∧
    after (exec (.refb 1 3 0) vaulted) (fun t => ((t.tile 0).vault.bank 19).refrem == 240) = true ∧
    gives (exec (.ref 2) vaulted) (trapped vaulted (vaultTrap 0x08 0x40 0x30 2 0 0 0)) = true := by decide +kernel
theorem test_meets_ColumnCommandsBeginTheirTransfer :
    (columnRow (.rda ⟨1, 2, 31, 0, 12287, 0⟩)).map (·.1) = some .rda ∧ ((issuer opened).vault.bank 18).row.toNat = 31 ∧
    dCheck opened.env (issuer opened).vault .rda 1 2 0 = none ∧ (dCheck opened.env (issuer opened).vault .wr 1 3 0).isSome = true := by
  decide +kernel
theorem test_meets_column_port : ∃ rs, placed opened [⟨61, true, 12287⟩] rs := ⟨_, rfl⟩
theorem test_column_commands :
    after (exec (.rda ⟨1, 2, 31, 0, 12287, 0⟩) opened) (fun t => (t.tile 0).pend.head?.map (fun p => (p.due, p.act)) ==
      some (61, .land 1 2 31 15 31 12287)) = true ∧
    after (exec (.wr ⟨1, 2, 0, 0, 5, 0⟩) opened) (fun t => (t.tile 0).pend.head?.map (fun p => (p.due, p.act)) ==
      some (17, .sample 1 2 31 0 5)) = true := by decide +kernel
/-- Two tiles of one plot, tile 1 east of tile 0. -/
def pair (f : Tile → Tile) : State :=
  let s := base f
  { s with
    plots := [(0, { runningPlot { bareTimetable with w := 2 } 0 with scyc := 5 })]
    tiles := s.tiles ++ [(1, { Tile.reset with plot := some 0, lx := 1 })] }
theorem test_meets_groupOk :
    groupOk (pair id) ⟨.east, 15, 0, 0⟩ 767 ∧ groupOk (pair id) ⟨.east, 0, 4, 0⟩ 766 ∧ ¬ groupOk (pair id) ⟨.east, 0, 4, 0⟩ 767 ∧
    ¬ groupOk (pair id) ⟨.east, 15, 1, 0⟩ 0 := by
  unfold groupOk
  decide
theorem test_meets_DrivesReachTheNeighbour :
    (15 : BitVec 4).toNat + width ⟨.east, 15, 0, 0⟩ ≤ 16 ∧ width ⟨.east, 15, 0, 0⟩ = 1 ∧
    (pair id).model.neighbour 0 .east = some 1 ∧ ((pair id).tile 1).plot = (issuer (pair id)).plot ∧
    inSpad ((issuer (pair id)).rs 1).toNat 32 32 ∧ ¬ inSpad ((issuer (pair (sc [(1, 0xBFFF0)]))).rs 1).toNat 32 32 ∧
    viewIsRow (.diag 0 0) = false ∧ (∃ rs tags, readable (pair id) (portsOf 5 false 0 32) 0 32 rs tags) := by
  unfold inSpad
  exact ⟨by decide, by decide, by decide, by decide, by decide, by decide, by decide, ⟨_, _, rfl, by decide +kernel, rfl⟩⟩
theorem test_drives :
    after (exec (.sdrv ⟨.east, 15, 0, 0⟩ (.scalar 1)) (pair (sc [(1, 9)]))) (fun t =>
      (t.tile 1).inbox == [⟨5 + (pair id).hopTime 0 .east 15, .east, 15, 9, 5, false, false⟩]) = true ∧
    after (exec (.seos ⟨.east, 14, 1, 0⟩) (pair id)) (fun t => (t.tile 1).inbox.map (fun f => (f.lane, f.eos)) == [(14, true), (15, true)]) = true ∧
    gives (exec (.sdrv ⟨.east, 15, 0, 0⟩ (.spad 1)) (pair (sc [(1, 0xBFFF0)]))) (trapped (pair (sc [(1, 0xBFFF0)])) (alignf 0 0xBFFF0)) = true := by
  decide +kernel
/-- Values of stamp 3 on lanes 14 and 15 of the east direction. -/
def arrived (eos : Bool) : State := pair (fun t => sc [(1, 1)] { t with inbox := [⟨5, .east, 14, 7, 3, eos, true⟩, ⟨5, .east, 15, 8, 3, eos, true⟩] })
def values (eos : Bool) : List Flow := [⟨5, .east, 14, 7, 3, eos, true⟩, ⟨5, .east, 15, 8, 3, eos, true⟩]
theorem test_meets_taps :
    taps (arrived false) ⟨.east, 14, 1, 0⟩ (.abs 3) false (values false) ∧
    taps (arrived false) ⟨.east, 14, 1, 0⟩ (.reg 1 2) false (values false) ∧
    taps (arrived true) ⟨.east, 14, 1, 0⟩ (.age 2) true (values true) := by
  have two (st : Stamp) (e : Bool) (h : expected (arrived e) st = 3) : taps (arrived e) ⟨.east, 14, 1, 0⟩ st e (values e) := by
    refine ⟨rfl, fun i f hf => ?_⟩
    rw [h]
    rcases i with _ | _ | i
    · cases hf
      exact ⟨by cases e <;> rfl, rfl, rfl⟩
    · cases hf
      exact ⟨by cases e <;> rfl, rfl, rfl⟩
    · cases hf
  exact ⟨two _ _ rfl, two _ _ rfl, two _ _ rfl⟩
theorem test_meets_TapsForwardsAndReductions : (0 : BitVec 4).toNat + width ⟨.east, 14, 1, 0⟩ ≤ 16 ∧
    onLane (arrived false) ⟨.east, 13, 0, 0⟩ 13 = none := by decide
theorem test_taps :
    gives (exec (.stap ⟨.east, 14, 1, 0⟩ (.row (.row 9)) (.age 2)) (arrived false))
      (begun (arrived false) (rowParts 9 [7, 8])) = true ∧
    gives (exec (.stap ⟨.east, 14, 0, 0⟩ (.scalar 4) (.abs 3)) (arrived false)) (begun (arrived false) [(2, .scalar false 4 7)]) = true ∧
    gives (exec (.stap ⟨.east, 13, 0, 0⟩ .none (.abs 3)) (arrived false))
      (trapped (arrived false) (slipStream 0xA0 3 none .east 13 13)) = true := by decide +kernel
theorem test_forwards :
    after (exec (.sfwd ⟨.east, 14, 1, 0⟩ .none (.abs 3) .east 0) (arrived true)) (fun t =>
      (t.tile 1).inbox.map (fun f => (f.lane, f.data, f.stamp, f.eos)) == [(0, 7, 3, true), (1, 8, 3, true)]) = true ∧
    after (exec (.sred ⟨.east, 14, 1, 0⟩ (.row (.row 9)) (.abs 3) .east 3 1)
      ((arrived false).mapTile 0 (rows [(9, 5)]))) (fun t => (t.tile 1).inbox.map (fun f => (f.lane, f.data, f.stamp)) ==
        [(3, 12, 5), (4, 8, 5)]) = true := by decide +kernel

/-! #### Effects as they land -/

/-- Effects on their way, the first of them due. -/
def due (l : List Act) (f : Tile → Tile) : State :=
  base (fun t => f { t with pend := l.map (fun a => ⟨5, a.rank, 0, 0x40, 7, a⟩) })
/-- A LEASE of the tile at column lx that is about to land, on a plot with a lease. -/
def asking (lx : Nat) (f : Lease → Lease) : State :=
  plot (due [.lease 16 0x7FFFF 0xFFFFF] (fun t => { t with lx := lx })) (fun pl => { pl with lease := f pl.lease })
def outranked (l : Lease) : Lease := { l with state := 1, ask := 3, askSc := 4 }
theorem test_meets_leases_that_land : headDue (asking 0 id) 0 ⟨5, 2, 0, 0x40, 7, .lease 16 0x7FFFF 0xFFFFF⟩ [] ∧
    (afind (asking 0 id).plots 0).map (fun pl => (pl.lease.state, pl.scyc)) = some (0, 5) ∧
    headDue (asking 1 outranked) 0 ⟨5, 2, 0, 0x40, 7, .lease 16 0x7FFFF 0xFFFFF⟩ [] ∧ ((asking 1 outranked).tile 0).lx = 1 ∧
    (afind (asking 1 outranked).plots 0).map (fun pl => (pl.lease.state, pl.lease.again, pl.lease.askSc, pl.lease.askRank)) =
      some (1, false, 4, 0) := by
  unfold headDue
  decide
theorem test_leases_land :
    after (exec (.exposedResultLands 0) (asking 0 id)) (fun t => (afind t.plots 0).map (fun pl =>
      (pl.lease.state, pl.lease.ask, pl.lease.pulses, pl.lease.us, pl.lease.uj, pl.lease.askSc)) == some (1, 16, 0, 0x7FFFF, 0xFFFFF, 4)) = true ∧
    after (exec (.exposedResultLands 0) (asking 1 outranked)) (fun t => (afind t.plots 0).map (fun pl => pl.lease.ask) == some 3) = true := by
  decide
theorem test_meets_ResultsLandInTheirRegisters :
    headDue (due [.pred 15 true] id) 0 ⟨5, 2, 0, 0x40, 7, .pred 15 true⟩ [] ∧ isRegister (.pred 15 true) = true ∧
    (Act.pred 15 true).rank = 2 ∧ headDue (due [.special 0x147 31] id) 0 ⟨5, 1, 0, 0x40, 7, .special 0x147 31⟩ [] ∧
    headDue (due [.special 0x13F 31] id) 0 ⟨5, 1, 0, 0x40, 7, .special 0x13F 31⟩ [] ∧
    headDue (due [.special 0x20 31] id) 0 ⟨5, 1, 0, 0x40, 7, .special 0x20 31⟩ [] := by
  unfold headDue
  decide
theorem test_landings :
    after (exec (.exposedResultLands 0) (due [.scalar false 0 9] id)) (fun t => (t.tile 0).regs == Regs.reset && (t.tile 0).pend == []) = true ∧
    after (exec (.exposedResultLands 0) (due [.pred 15 true] id)) (fun t => (t.tile 0).regs.preds == 0x8001) = true ∧
    after (exec (.exposedResultLands 0) (due [.accFill 1] (fun t => { t with regs := { t.regs with acc := [(63, 1), (64, 2), (127, 3), (128, 4)] } })))
      (fun t => (t.tile 0).regs.acc == [(63, 1), (128, 4)]) = true ∧
    after (exec (.exposedResultLands 0) (due [.cells 767 1 9] (rows [(767, 0x500000003)]))) (fun t => (t.tile 0).regs.vrow == [(767, 0x500000009)]) = true := by
  decide +kernel
theorem test_special_landings :
    after (exec (.exposedResultLands 0) (due [.special 0x147 31] id)) (fun t => (t.tile 0).vault.limit 3 == 31) = true ∧
    after (exec (.exposedResultLands 0) (due [.special 0x140 0x8FFF] id)) (fun t => (t.tile 0).vault.base 0 == 0xFFF && (t.tile 0).vault.en 0) = true ∧
    after (exec (.exposedResultLands 0) (due [.special 0x11 5] id)) (fun t => (t.tile 0).regs.rmode == 5) = true ∧
    after (exec (.exposedResultLands 0) (due [.special 0x11 6] (fun t => { t with regs := { t.regs with rmode := 1 } })))
      (fun t => (t.tile 0).regs.rmode == 0) = true ∧
    after (exec (.exposedResultLands 0) (due [.special 0x20 0xFFFFFFFF] id)) (fun t => (t.tile 0).trap.tcause == 0x1FFFF) = true ∧
    after (exec (.exposedResultLands 0) (due [.special 0x13F 9] id)) (fun t => ((t.tile 0).vault.bank 63).toBits == 9) = true ∧
    after (exec (.exposedResultLands 0) (due [.special 0x14 7] id)) (fun t => (t.tile 0).regs.rngCtr == 4) = true := by
  decide +kernel
theorem test_meets_AResultIsReadAfterItsLatency :
    integerRow (issuer scalars) (.mul 9 1 1) = some (9, 3, 49) ∧ (issuer scalars).plot = some 0 ∧
    (afind scalars.plots 0).isSome = true ∧ (issuer scalars).pend = [] ∧ (issuer scalars).trap.sup = false := by decide
def stores : State := { due [.spadWr 0x3E [1, 2, 3, 0] true] id with mem := [(2 ^ 48 + 0x41, 9)] }
theorem test_meets_StoresAndVaultTransfersMoveTheirBytes :
    headDue stores 0 ⟨5, 3, 0, 0x40, 7, .spadWr 0x3E [1, 2, 3, 0] true⟩ [] ∧ (Act.spadWr 0x3E [1, 2, 3, 0] true).rank = 3 ∧
    (∃ tags, stores.claim 0 0 .write (gransOf 0x3E 4) = .ok tags) ∧ stores.errs = [] ∧
    (∃ tags, stores.claim 0 0 .read [1] = .ok tags) := by
  unfold headDue
  exact ⟨by decide, by decide, ⟨_, rfl⟩, by decide, ⟨_, rfl⟩⟩
/-- A read of a late operation that is due, over bytes of the tile's scratchpad. -/
def reading (a : Act) (f : Tile → Tile) : State :=
  { due [a] (fun t => f { t with turn := true }) with mem := Memory.write [] (2 ^ 48 + 0x1FC) (leBytes 8 0x0807060504030201) }
theorem test_meets_late_reads : (∀ a ∈ [Act.gather 767 [(0, 0x1FC), (63, 0x200)], .atomRead .add true 0x1FC 1 0 false 9,
      .lddRead 4 2 1 0x100 [0], .ldwbRead true 0x1C0 1023 5 4, .strRead 3 0x1C0],
      readDue (reading a id) 0 ⟨5, 5, 0, 0x40, 7, a⟩ [] ∧ a.rank = 5) ∧
    headDue (due [.atomClaim 0x1FC 8] id) 0 ⟨5, 3, 0, 0x40, 7, .atomClaim 0x1FC 8⟩ [] ∧
    (∃ tags, (reading (.strRead 3 0x1C0) id).claim 0 0 .read (gransOf 0x1C0 64) = .ok tags) ∧
    (∃ tags, (reading (.lddRead 4 2 1 0x100 [0]) id).claim 0 0 .read (gransOf (0x100 + 256 * 1) 256) = .ok tags) ∧
    (∃ tags, (reading (.ldwbRead true 0x1C0 1023 5 4) id).claim 0 0 .read (gransOf (0x1C0 + 64 * 4) (64 * Nat.min 4 1)) = .ok tags) ∧
    (∃ tags, (due [.atomClaim 0x1FC 8] id).claim 0 0 .write (gransOf 0x1FC 8) = .ok tags) ∧
    (∃ tags, lanesClaimed 0 [(0, 0x1FC), (63, 0x200)] (reading (.gather 767 [(0, 0x1FC), (63, 0x200)]) id) tags) := by
  unfold readDue headDue
  exact ⟨by decide +kernel, by decide, ⟨_, rfl⟩, ⟨_, rfl⟩, ⟨_, rfl⟩, ⟨_, rfl⟩, ⟨_, _, rfl, _, rfl, rfl⟩⟩
theorem test_late_reads :
    after (exec (.staticPortAccess 0) (reading (.gather 767 [(0, 0x1FC), (63, 0x200)]) id)) (fun t =>
      (t.tile 0).pend.map (fun p => (p.due, match p.act with
        | .cells r m v => (r, m, rowCell v 0, rowCell v 63)
        | _ => (0, 0, 0, 0))) == [(16, 767, 0x8000000000000001, 0x04030201, 0x08070605)]) = true ∧
    after (exec (.staticPortAccess 0) (reading (.atomRead .add true 0x1FC 1 0 false 9) id)) (fun t =>
      (t.tile 0).pend.map (fun p => (p.due, p.act)) == [(6, .spadWr 0x1FC (leBytes 8 0x0807060504030202) false),
        (11, .scalar false 9 0x0807060504030201), (11, .flags 0)]) = true ∧
    after (exec (.staticPortAccess 0) (reading (.ldwbRead true 0x1C0 1023 5 4) id)) (fun t => (t.tile 0).pend == [] &&
      (t.tile 0).regs.wb == []) = true ∧
    after (exec (.staticPortAccess 0) (reading (.strRead 3 0x1C0) (fun t => { t with dyn :=
      [⟨3, .str, 0x40, 0x1C0, 7, 0, 0x40, 7, none, none, 0, 0, false, 0, none⟩] }))) (fun t =>
      (t.tile 0).dyn.map (fun d => d.data.map (fun b => leNat (b.drop 60))) == [some 0x04030201]) = true := by decide +kernel
/-- A granule of a shared window that another tile has claimed. -/
def claimed : State := base (fun t => { t with
  pend := [⟨5, 3, 0, 0x40, 7, .spadWr 0 [1] true⟩], wins := [⟨true, 3, 0, 0x1000⟩], tags := [(0, 0x401)] })
theorem test_a_store_takes_place :
    after (exec (.staticPortAccess 0) stores) (fun t => t.mem == [(2 ^ 48 + 0x3E, 1), (2 ^ 48 + 0x3F, 2), (2 ^ 48 + 0x40, 3)]) = true ∧
    after (exec (.vaultLanding 0) { due [.land 1 2 31 15 31 12287] id with mem := [(2 ^ 27 + 2 ^ 24 + 31 * 2 ^ 11 + 31 * 64 + 63, 9)] })
      (fun t => Memory.get t.mem (2 ^ 48 + 12287 * 64 + 63) == 9 && t.mem.length == 2) = true ∧
    after (exec (.vaultLanding 0) { due [.land 1 2 31 15 31 12287] id with soft := [2 ^ 27 + 2 ^ 24 + 31 * 2 ^ 11 + 31 * 64] })
      (fun t => (t.tile 0).corrections == 1 && t.soft.length == 1) = true ∧
    after (exec (.wrSample 0) { due [.sample 1 2 31 0 5] (fun t => { t with turn := true }) with mem := [(2 ^ 48 + 320, 9)] })
      (fun t => Memory.get t.mem (2 ^ 27 + 2 ^ 24 + 31 * 2 ^ 11) == 9) = true := by decide +kernel
def started : State := due [.mseqStep 1] (fun t => { t with mx := { t.mx with mseq := some ⟨0x40, anMseq, 0x200000000, 1, 0⟩ } })
theorem test_meets_MatrixEngineStepsTakePlace :
    headDue started 0 ⟨5, 4, 0, 0x40, 7, .mseqStep 1⟩ [] ∧ (started.tile 0).mx.mseq = some ⟨0x40, anMseq, 0x200000000, 1, 0⟩ ∧ started.rings = [] ∧
    headDue (due [.mseqEnd 2] id) 0 ⟨5, (Act.mseqEnd 2).rank, 0, 0x40, 7, .mseqEnd 2⟩ [] ∧
    (Act.mseqStep 1).rank = 4 ∧ (seqParam 0x200000000).nstep = 1 ∧ (Act.ldwbDone true).rank = 2 ∧ (Act.ready 7 (List.replicate 64 5) 0x10).rank = 2 ∧
    (List.replicate 64 (5 : Row)).length = 64 := by
  unfold headDue
  decide +kernel
theorem test_matrix_steps :
    after (exec (.mseqStepStart 0) started) (fun t => (t.tile 0).mx.mseq == some ⟨0x40, anMseq, 0x200000000, 2, 0⟩ &&
      (t.tile 0).regs == Regs.reset && (t.tile 0).pend.getLast?.map (·.act) == some (.mseqEnd 2)) = true ∧
    after (exec (.mseqStepStart 0) (due [.mseqEnd 2] id)) (fun t => (t.tile 0).mx.mseq == none && (t.tile 0).pend == []) = true ∧
    after (exec (.mmaResultReady 0) (due [.ready 7 (List.replicate 64 5) 0x10] id)) (fun t =>
      (t.tile 0).regs.acc.length == 64 && (t.tile 0).regs.acc.getLast? == some (511, 5) && (t.tile 0).regs.flags == 0x10) = true ∧
    after (exec (.ldwbComplete 0) (due [.ldwbDone true] id)) (fun t => (t.tile 0).pend == []) = true := by decide +kernel
def anXOp : XOp := ⟨7, false, .f32, .f32, 0, .none, .none, false, 0, 64, List.replicate 64 0⟩
theorem test_pass_one : (Act.pass1 anXOp [] 0).rank = 4 ∧
    after (exec (.mmaPass1Start 0) (due [.pass1 anXOp (List.replicate 64 0) 0] id)) (fun t =>
      (t.tile 0).pend.map (fun p => (p.due, p.rank)) == [(45, 2)]) = true := by decide +kernel
theorem test_meets_a_race : claimed.claim 0 0 .write (gransOf 0 1) = .error (0x91, 0, 1) ∧
    after (exec (.staticPortAccess 0) claimed) (fun t => t.mem == [] &&
      (t.tile 0).trap.pending == [(3, raceTrap 0x40 7 0x91 0 1, none)]) = true := ⟨rfl, by decide +kernel⟩

/-! #### Steps beside the bundles -/

def banked (b : Bank) : State := vaulted.mapTile 0 (fun t => { t with vault := { t.vault with
  vwb := [(1, 0xA010)], banks := [(18, b)], refMp := [(18, 0)], expired := [17, 18] } })
def late (b : Bank) : State := { banked b with mp := 2 ^ 40 }
theorem test_meets_VaultEventsChangeTheirBank :
    (((banked { Bank.reset with state := 2, apre := 0, row := 9 }).tile 0).vault.bank 18).state = 2 ∧
    (((banked { Bank.reset with state := 2, apre := 0, row := 9 }).tile 0).vault.bank 18).apre = 0 ∧
    (((banked { Bank.reset with state := 3, refrem := 0 }).tile 0).vault.bank 18).state = 3 ∧
    (((banked { Bank.reset with state := 3, refrem := 0 }).tile 0).vault.bank 18).refrem = 0 ∧
    ((banked Bank.reset).tile 0).vault.expired = 17 :: [18] ∧ 31 < (banked Bank.reset).model.clusters ∧
    (banked Bank.reset).rings = [] ∧ (banked Bank.reset).queues = [] ∧ (∀ p ∈ (banked Bank.reset).plots, p.2.reset = false) := by
  decide +kernel
theorem test_vault_events :
    after (exec (.prechargePoint 0 18) (banked { Bank.reset with state := 2, apre := 0, row := 9 })) (fun t =>
      (t.tile 0).vault.bank 18 == { Bank.reset with apre := 0 }) = true ∧
    after (exec (.refreshComplete 0 18) (banked { Bank.reset with state := 3, refrem := 0, rkind := true })) (fun t =>
      (t.tile 0).vault.bank 18 == { Bank.reset with rkind := true }) = true ∧
    after (exec (.drefl 0) (banked Bank.reset)) (fun t => (t.tile 0).vault.expired == [] &&
      (t.tile 0).trap.pending == [(4, vaultTrap 0x09 0 0x40 1 1 0 0xF, none)]) = true := by decide +kernel
def hotter (b : Nat) : State := { banked Bank.reset with clusters := [(31, { Cluster.reset with band := b })] }
theorem test_bands :
    after (exec (.bandChange 31 86) (hotter 0)) (fun t => (t.cluster 31).band == 1) = true ∧
    after (exec (.bandChange 31 84) (hotter 1)) (fun t => (t.cluster 31).band == 1) = true ∧
    after (exec (.bandChange 31 83) (hotter 1)) (fun t => (t.cluster 31).band == 0) = true ∧
    after (exec (.bandChange 31 115) (hotter 0)) (fun t => (t.cluster 31).band == 3) = true := by decide +kernel
/-- The vault of tile 0 on the program's schedule, with a bank whose deadline has run out. -/
def overdue (f : Plot → Plot) : State := plot (late Bank.reset) f
def turning : State := (overdue id).mapTile 0 (fun t => { t with turn := true })
theorem test_meets_refresh_deadlines :
    (overdue id).mpDue 0 18 = true ∧ (overdue id).programs 0 18 = true ∧ (((overdue id).tile 0).vault.bank 18).refdue ≠ 0 ∧
    turning.mpDue 0 18 = true ∧ turning.programs 0 18 = true ∧ 110 ≤ 115 ∧
    (((hotter 3).mapCluster 31 (fun k => { k with hot := true })).cluster 31).hot = true ∧
    (afind (overdue id).plots 0).map (fun pl => (pl.forced, pl.overrun || (overdue id).overrunNow pl)) = some (none, false) ∧
    (overdue (fun pl => { pl with st := .paused })).mpDue 0 18 = true ∧
    (overdue (fun pl => { pl with st := .paused })).programs 0 18 = false ∧
    (banked { Bank.reset with state := 1, row := 31 }).programs 0 2 = false := by decide +kernel
theorem test_the_guard_of_a_hot_cluster :
    after (exec (.bandChange 31 115) ((hotter 3).mapCluster 31 (fun k => { k with hot := true }))) (fun t =>
      (List.range 4).map (fun j => afind (t.tile (tileIdx 31 (12 + j))).vault.refMp 63) == List.replicate 4 (some 0)) = true := by
  decide +kernel
theorem test_refresh_deadlines :
    after (exec (.mpRefreshDeadline 0 18) (overdue id)) (fun t => afind (t.tile 0).vault.refMp 18 == some (2 ^ 40) &&
      (afind t.plots 0).map (·.forced) == some (some (5, ⟨.therm, 0xF3, 1, 2⟩))) = true ∧
    after (exec (.mpRefreshDeadline 0 18) turning) (fun t =>
      (afind t.plots 0).map (·.forced) == some (some (6, ⟨.therm, 0xF3, 1, 2⟩))) = true ∧
    after (exec (.refreshGuardRefresh 0 18) (overdue (fun pl => { pl with st := .paused }))) (fun t =>
      afind (t.tile 0).vault.refMp 18 == some (2 ^ 40) && (afind t.plots 0).map (·.forced) == some none) = true := by
  decide +kernel
/-- Virtual addresses 0 to 0xFFFF are host memory from 2^51 on, with every right. -/
def hostRange : BitVec 256 := BitVec.ofNat 256 (2 ^ 63 + 15 * 2 ^ 76 + 7 * 2 ^ 128 + 2 ^ 39 * 2 ^ 140)
/-- The same addresses are stratum 0 of the service vault of tile 0, replicated in clusters 0 and 1. -/
def replicas : BitVec 256 := BitVec.ofNat 256 (2 ^ 63 + 15 * 2 ^ 76 + 7 * 2 ^ 128 + 2 ^ 132 + 3 * 2 ^ 192)
def ranged (e : BitVec 256) (f : Tile → Tile) : State :=
  let s := base f
  { s with
    ctxs := [(0, { Ctx.reset with ranges := [(0, e)], active := [(0, e)] })]
    tiles := s.tiles ++ [(4, { Tile.reset with vault := { Vault.reset with svcMark := 1 } })]
    mem := Memory.write [] (2 ^ 51 + 0x40) (leBytes 8 0x0102030405060708) }
def aDyn (k : DynKind) (data : Option (List Byte)) : Dyn := ⟨3, k, 0x40, 0x80, 7, 0, 0x40, 7, none, data, 1, 0, false, 0, none⟩
def ones : List Byte := List.replicate 64 0x11
def withDyn (d : Dyn) (t : Tile) : Tile := { t with dyn := [d], dynNo := 4, vault := { t.vault with svcMark := 1 } }
def served (k : DynKind) (e : BitVec 256) : State := ranged e (withDyn (aDyn k (if k = .str then some ones else none)))
/-- An LDR that has read its target, with reservations at its bank. -/
def waitsToWrite (l : List Resv) : State := ranged hostRange (fun t => withDyn (aDyn .ldr (some ones)) { t with ports := l })
def asks (s : State) : Agent := s.agentOf 0 false (some (.dyn 0 3))
theorem test_meets_DynamicAccessesArePerformedAndEnd :
    (served .str hostRange).findDyn 0 3 = some (aDyn .str (some ones)) ∧
    (served .str hostRange).dynMay 0 (aDyn .str (some ones)) = true ∧ ones.length = 64 ∧
    (served .str hostRange).heldPage 0 0x40 = false ∧ (served .str hostRange).portFull (asks (served .str hostRange)) = false ∧
    (served .ldr hostRange).portFull (asks (served .ldr hostRange)) = false ∧
    (served (.atom .add true) hostRange).portFull (asks (served (.atom .add true) hostRange)) = false ∧
    (served .str hostRange).reach (asks (served .str hostRange)) 0x40 .write = .ok [2 ^ 51 + 0x40] ∧
    (served .str replicas).replicated 0 0x40 = true ∧
    (served .str replicas).reach (asks (served .str replicas)) 0x40 .write = .ok [0x40, 4 * 2 ^ 29 + 0x40] ∧
    (served .ldr hostRange).reach (asks (served .ldr hostRange)) 0x40 .read = .ok [2 ^ 51 + 0x40] ∧
    (waitsToWrite []).dynMay 0 (aDyn .ldr (some ones)) = true ∧
    (waitsToWrite [⟨5, .dataWrite, 2, 2, []⟩]).findDyn 0 3 = some (aDyn .ldr (some ones)) ∧
    (waitsToWrite [⟨5, .dataWrite, 2, 2, []⟩]).dynMay 0 (aDyn .ldr (some ones)) = true ∧
    (waitsToWrite [⟨5, .dataWrite, 2, 2, []⟩]).sideFree (2 ^ 48 + 0x80) 64 true false = false ∧
    (served (.atom .add true) hostRange).sideFree (2 ^ 48 + 0x90) 8 true false = true ∧
    (served .ldr hostRange).dynMay 0 (aDyn .ldr none) = true ∧
    (served (.atom .add true) hostRange).dynMay 0 (aDyn (.atom .add true) none) = true ∧
    (served .ldr hostRange).memErr (2 ^ 51 + 0x40) 64 = false ∧
    (served (.atom .add true) hostRange).reach (asks (served (.atom .add true) hostRange)) 0x40 .atomic =
      .ok [2 ^ 51 + 0x40] := by decide +kernel
theorem test_meets_backFree : backFree (served (.atom .add true) hostRange) 0 0x80 ∧
    (ranged hostRange (fun t => withDyn (aDyn (.atom .add true) none) { t with ports := [⟨5, .dataWrite, 2, 2, []⟩] })).sideFree
      (2 ^ 48 + 0x90) 8 true false = false ∧ (leBytes 8 9).length = 8 := by
  unfold backFree
  decide +kernel
theorem test_meets_dynamic_claims : offSpad (2 ^ 51 + 0x40) ∧ offSpad 0x40 ∧
    (∃ tags, takesItsTurn (served .ldr hostRange) 0 0x80 tags) ∧ (∃ tags, takesItsTurn (waitsToWrite []) 0 0x80 tags) ∧
    (∃ tags, (served (.atom .add true) hostRange).claim 0 0 .awrite (gransOf 0x90 8) = .ok tags) :=
  ⟨.inr (by decide), .inl (by decide), ⟨_, by decide, by decide +kernel, by decide +kernel, rfl⟩,
    ⟨_, by decide, by decide +kernel, by decide +kernel, rfl⟩, ⟨_, rfl⟩⟩
theorem test_dynamic_accesses_are_performed :
    after (exec (.sidePortServe 0 3) (served .str hostRange)) (fun t => Memory.get t.mem (2 ^ 51 + 0x7F) == 0x11 &&
      (t.findDyn 0 3).map (·.served) == some true) = true ∧
    after (exec (.replicaCommit 0 3) (served .str replicas)) (fun t => Memory.get t.mem 0x40 == 0x11 &&
      Memory.get t.mem (4 * 2 ^ 29 + 0x7F) == 0x11 && (t.findDyn 0 3).map (·.served) == some true) = true ∧
    after (exec (.sidePortServe 0 3) (served .ldr hostRange)) (fun t => Memory.get t.mem (2 ^ 48 + 0x87) == 1) = true ∧
    after (exec (.sidePortServe 0 3) (waitsToWrite [⟨5, .dataWrite, 2, 2, []⟩])) (fun t => t.mem == (waitsToWrite []).mem &&
      (t.findDyn 0 3).map (·.served) == some false) = true ∧
    after (exec (.sidePortServe 0 3) (served (.atom .add true) hostRange)) (fun t =>
      leNat (Memory.read t.mem (2 ^ 51 + 0x40) 8) == 0x0102030405060709 &&
      leNat (Memory.read t.mem (2 ^ 48 + 0x90) 8) == 0x0102030405060708) = true := by decide +kernel
def ended (k : DynKind) (flt : Option DynFault) : State :=
  ranged hostRange (withDyn { aDyn k none with served := flt.isNone, flags := 0x10, fault := flt })
theorem test_meets_dynamic_accesses_end :
    (ended .ldr none).findDyn 0 3 = some { aDyn .ldr none with served := true, flags := 0x10 } ∧
    (ended .ldr (some ⟨0x10, 0x7F, 0x40, 0⟩)).findDyn 0 3 = some { aDyn .ldr none with flags := 0x10, fault := some ⟨0x10, 0x7F, 0x40, 0⟩ } ∧
    ((ended .ldr none).members 0 7).Nodup ∧
    leNat (Memory.read (ended .ldr none).mem ((ended .ldr none).ctx 0).savePa 64) / 2 ^ 63 % 2 = 0 := by decide +kernel
theorem test_dynamic_accesses_end :
    after (exec (.dynamicAccessEnd 0 3) (ended .ldr none)) (fun t => (t.tile 0).dyn == [] && ((t.tile 0).bar 7).arrCnt == 1 &&
      ((t.tile 0).bar 7).byteCnt == 64 && (t.tile 0).regs.pflags == 0) = true ∧
    after (exec (.dynamicAccessEnd 0 3) (ended (.atom .fadd false) none)) (fun t => ((t.tile 0).bar 7).byteCnt == 8 &&
      (t.tile 0).regs.pflags == 0x10) = true ∧
    after (exec (.dynamicAccessEnd 0 3) (ended .ldr (some ⟨0x10, 0x7F, 0x40, 0⟩))) (fun t => ((t.tile 0).bar 7).err == 0x10 &&
      ((t.tile 0).bar 7).arrCnt == 1 && leNat (Memory.read t.mem 0 16) == 0x40 * 2 ^ 64 + 2 ^ 63 + 0x7F * 2 ^ 56 + 0x10 * 2 ^ 48 +
        7 * 2 ^ 42 + 1 * 2 ^ 32) = true := by decide +kernel

def walked : State := { base id with
  walks := [⟨0, 0, 5, [0, 1]⟩, ⟨1, 0, 5, [16]⟩], ctxs := [(0, { Ctx.reset with ptActive := 2 ^ 51 })] }
/-- A twin range that tile 0 publishes, issued in sc 0. -/
def twins : BitVec 256 := BitVec.ofNat 256 (2 ^ 63 + 15 * 2 ^ 76 + 15 * 2 ^ 128 + 2 ^ 39 * 2 ^ 140 + (2 ^ 39 + 16) * 2 ^ 204)
def aPub : Pub := ⟨0x40, .plot, 7, 0, 0, 0x40, 0, 0, 0, 0⟩
def publishing : State := { base id with
  ctxs := [(0, { Ctx.reset with ranges := [(3, twins)], active := [(3, twins)], pubs := [aPub] })] }
/-- An overlay load of page 1 that has read all lines but the last. -/
def overlay : State := plot (ranged hostRange (fun t => { t with seq := { t.seq with ovls := [⟨1, 31, 7, 0x40, 0, List.replicate 4032 0⟩] } })) id
/-- The same load over the scratchpad of the tile, which its own static reservation holds. -/
def overlayHeld : State := { plot (ranged (BitVec.ofNat 256 (2 ^ 63 + 15 * 2 ^ 76 + 7 * 2 ^ 128 + 2 ^ 36 * 2 ^ 140))
  (fun t => { t with ports := [⟨5, .dataRead, 16, 64, []⟩], seq := { t.seq with ovls := [⟨1, 31, 7, 0x40, 0, []⟩] } })) id with rings := [] }
def polling (x : BitVec 64) : State := ranged hostRange (fun t =>
  { t with turn := true, seq := { t.seq with wait := .waita 0x40 .eq true x 0x40 } })
theorem test_meets_WalksPublishesOverlaysAndReadsComplete :
    walked.walks.find? (fun w => w.die == 0) = some ⟨0, 0, 5, [0, 1]⟩ ∧ publishing.nextPub 0 = some aPub ∧
    (match publishing.pubTarget 0 (publishing.plotOf 0) 0x40 with | .ok p => p == (3, twins) | .error _ => false) = true ∧
    (overlay.tile 0).seq.ovls = [⟨1, 31, 7, 0x40, 0, List.replicate 4032 0⟩] ∧ overlay.pageVa 0 1 = 0x1000 ∧
    (match pageRead 0 (overlay.pageVa 0 1) 1 (List.replicate 4032 0) overlay with | (b, .done (), _) => b.length == 4096 | _ => false) = true ∧
    (match pageRead 0 0x1000 64 [] overlayHeld with | (b, .ask, _) => b == [] | _ => false) = true ∧
    (polling 0x0102030405060708).waitaMay 0 = true ∧
    (match ((polling 0).waitRead 0 0x40 .eq true 0).1 with | .done b => !b | _ => false) = true := by decide +kernel
theorem test_walks_and_publishes :
    after (exec (.pageWalkComplete 0) walked) (fun t => t.walks == [⟨1, 0, 5, [16]⟩] && t.cached 0 0 5 == some (.fault 0x60) &&
      t.cached 1 0 5 == some (.fault 0x60) && t.cached 16 0 5 == none) = true ∧
    after (exec (.publishSwap 0) publishing) (fun t => RangeE.fsel (sget 0 (t.ctx 0).active 3) && (t.ctx 0).pubs == [] &&
      ((t.tile 0).bar 7).arrCnt == 1) = true := by decide +kernel
theorem test_overlays_and_reads :
    after (exec (.ovlLoadComplete 0) overlay) (fun t => (t.tile 0).seq.ovls == [] && ((t.tile 0).bar 7).byteCnt == 4096 &&
      sget 0 (t.tile 0).seq.ftags 31 == pageTag 0 1) = true ∧
    after (exec (.waitaReadReturn 0) (polling 0x0102030405060708)) (fun t => (t.tile 0).seq.wait == .none && (t.tile 0).polled) = true ∧
    after (exec (.waitaReadReturn 0) (polling 0)) (fun t => (t.tile 0).seq.wait != .none && (t.tile 0).polled) = true := by
  decide +kernel
/-- A copy of 0x40 to 0x7F to 0x1000 on. -/
def desc64 : BitVec 512 := BitVec.ofNat 512 (7 * 2 ^ 368 + 64 * 2 ^ 128 + 0x1000 * 2 ^ 64 + 0x40)
def shuttled (f : Copy → Copy) : State :=
  { ranged hostRange id with clusters := [(0, { Cluster.reset with copies := [f { aCopy with desc := desc64, sc := 0 }] })] }
def aBeat : Beat := ⟨0, 64, 0x1000, [2 ^ 51 + 0x1000], none, List.replicate 64 9, 0x20⟩
def copies (s : State) (write : Bool) : Agent := s.copyAgent 0 { aCopy with desc := desc64, sc := 0 } 0 write false
def inFlight : State := shuttled (fun c => { c with next := 64, beats := [aBeat] })
def cancelled : State := shuttled (fun c => { c with cancelled := true })
theorem test_meets_ShuttleBeatsStartAndComplete :
    ((shuttled id).cluster 0).copies = [{ aCopy with desc := desc64, sc := 0 }] ∧
    (shuttled id).beatMay 0 { aCopy with desc := desc64, sc := 0 } = true ∧ elemSrc desc64 0 = 0x40 ∧ beatLen desc64 0 = 64 ∧
    (match ((shuttled id).vaRead (copies (shuttled id) false) 0x40 64).1 with
      | .done b => b.length == 64 | _ => false) = true ∧
    (shuttled id).heldPage 0 0x1000 = false ∧ (shuttled id).reach (copies (shuttled id) false) 0x1000 .write = .ok [2 ^ 51 + 0x1000] ∧
    (match (inFlight.placeWrite (copies inFlight true) aBeat.pas aBeat.bytes .awrite).1 with
      | .done _ => true | _ => false) = true ∧
    ((cancelled.cluster 0).copies.find? (fun c => c.over && c.tile.isSome)).map (·.age) = some 0 ∧
    (shuttled id).queues = [] ∧ (shuttled id).rings = [] ∧ (∀ p ∈ (shuttled id).plots, p.2.reset = false) := by decide +kernel
theorem test_shuttle_beats :
    after (exec (.shuttleBeatIssue 0) (shuttled id)) (fun t => (t.cluster 0).copies.map (fun c => (c.next, c.beats.map (fun b =>
      (b.dst, b.count, leNat (b.bytes.take 8))))) == [(64, [(0x1000, 64, 0x0102030405060708)])]) = true ∧
    after (exec (.shuttleBeatComplete 0) inFlight) (fun t => (t.cluster 0).copies.map (fun c => (c.beats, c.written, c.flags)) ==
      [([], 64, 0x20)] && Memory.get t.mem (2 ^ 51 + 0x103F) == 9 && ((t.tile 0).bar 7).byteCnt == 64 && ((t.tile 0).bar 7).arrCnt == 0) = true ∧
    after (exec (.shuttleBeatComplete 0) cancelled) (fun t => (t.cluster 0).copies == [] && ((t.tile 0).bar 7).byteCnt == 64 &&
      ((t.tile 0).bar 7).arrCnt == 1) = true := by decide +kernel
def barred (b : Bar) (f : Tile → Tile) : State := base (fun t => f { t with turn := true, bars := [(3, b)] })
def full : Bar := { Bar.reset with armed := true, arrExp := 2, byteExp := 64, arrCnt := 3, byteCnt := 64, flags := 0x10 }
def seenNow : State := barred { full with phase := true, seenAt := [5, 9] } (fun t =>
  { t with wins := [⟨true, 3, 0x1000, 0x1000⟩], tags := [(63, 1), (64, 2), (127, 3), (128, 4)] })
def left (err esub : BitVec 8) : State := barred { full with seen := true, lerr := err, lesub := esub, lflags := 0x21 } (fun t =>
  { t with turn := false, seq := { t.seq with wait := .barw 3 false 0x40 } })
/-- The plot of a tile at the edge of link 0 spans that link, whose stream lane is usable. -/
def spanned (sc : BitVec 2) : State := plot (barred { full with scope := sc } id) (fun pl => { pl with w := 64 })
def edged : State :=
  { plot (base id) (fun pl => { pl with w := 64, scyc := 643 }) with
    tiles := [(tileIdx 0 4, { Tile.reset with plot := some 0, ly := 4 })], links := [(0, { Link.reset with stream := true })] }
theorem test_meets_streams_of_links : edged.model.edgeLink (tileIdx 0 4) (opposite .east) = some 0 ∧ (edged.link 0).stream = true ∧
    (edged.plotOf (tileIdx 0 4)).map (fun pl => (pl.st == .running, pl.w, pl.scyc)) = some (true, 64, 640 + 3) ∧
    (edged.tile (tileIdx 0 4)).inbox = [] ∧ (base id).model.edgeLink 0 (opposite .east) = none ∧
    (spanned 2).seenLag 0 3 = 641 ∧ (barred full id).seenLag 0 3 = 1 := by decide +kernel
theorem test_streams_of_links : after (exec (.streamValueArrives (tileIdx 0 4) .east 0 7 3 false) edged) (fun t =>
    (t.tile (tileIdx 0 4)).inbox == [⟨643, .east, 0, 7, 3, false, true⟩]) = true ∧
    gives (exec (.streamValueArrives (tileIdx 0 4) .east 0 7 4 false) edged) edged = true ∧
    gives (exec (.streamValueArrives 0 .east 0 7 3 false) (base id)) (base id) = true := by decide +kernel
theorem test_meets_BarriersCompleteAndValuesArrive :
    (((barred full id).tile 0).bar 3).armed = true ∧ (((barred full id).tile 0).bar 3).tested = false ∧
    (((barred full id).tile 0).bar 3).arrExp.toNat ≤ (((barred full id).tile 0).bar 3).arrCnt.toNat ∧
    (((barred full id).tile 0).bar 3).byteExp.toNat ≤ (((barred full id).tile 0).bar 3).byteCnt.toNat ∧
    (barred full id).scOver 0 = true ∧ ((barred full id).members 0 3).Nodup ∧
    ((seenNow.tile 0).bar 3).seenAt = [5, 9] ∧ 5 ≤ seenNow.now 0 ∧ seenNow.now 0 < 9 ∧ (seenNow.members 0 3).Nodup ∧
    ((left 0 0).tile 0).seq.wait = .barw 3 false 0x40 ∧ ((left 0x0F 0x10).tile 0).turn = false ∧
    (((left 0x0F 0x10).tile 0).bar 3).seen ≠ false ∧ (((left 0x0F 0x10).tile 0).bar 3).lerr ≠ 0 ∧
    (⟨5, .east, 14, 7, 3, false, false⟩ ∈ ((base (fun t => { t with inbox := [⟨5, .east, 14, 7, 3, false, false⟩] })).tile 0).inbox) := by
  decide +kernel
theorem test_barriers :
    after (exec (.barrierPhaseComplete 0 3) (barred full id)) (fun t => (t.tile 0).bar 3 ==
      { full with arrCnt := 1, byteCnt := 0, lflags := 0x10, flags := 0, phase := true, seenAt := [6], tested := true }) = true ∧
    after (exec (.barrierCompletionSeen 0 3) seenNow) (fun t => ((t.tile 0).bar 3).seen && ((t.tile 0).bar 3).seenAt == [9] &&
      (t.tile 0).tags == [(63, 1), (128, 4)]) = true ∧
    after (exec (.barwResume 0) (left 0x0F 0x10)) (fun t => (t.tile 0).seq.wait == .none && (t.tile 0).regs.flags == 0x21 &&
      (t.tile 0).trap.pending == [(5, trapAt 0x0F 0x40 0x10 3, some 0x40)]) = true ∧
    after (exec (.streamValueArrives 0 .east 14 7 3 false) (base (fun t => { t with inbox := [⟨5, .east, 14, 7, 3, false, false⟩] })))
      (fun t => (t.tile 0).inbox == [⟨5, .east, 14, 7, 3, false, true⟩]) = true := by decide +kernel

/-! #### Plots -/

def held (c : HoldCond) (us : Nat) (hs : List Nat) : State :=
  let s := plot (barred { full with seen := true, lflags := 0x21 } (fun t => { t with turn := false, seq := { t.seq with wait := .hold 0 c 0x40 } }))
    (fun pl => { pl with st := .paused, held := hs, tt := { pl.tt with holds := [⟨c, us, false⟩] } })
  { s with mp := 4000 * us }
theorem test_meets_HoldsRequestsAndPlotStops :
    (afind (held (.bar 3 false) 0 [0]).plots 0).map (fun pl => (pl.st == .paused, (held (.bar 3 false) 0 [0]).retainedPlot pl,
      (held (.bar 3 false) 0 [0]).allHeld 0 pl, (held (.bar 3 false) 0 [0]).pausers 0 pl)) = some (true, false, true, [0]) ∧
    ((held (.bar 3 false) 0 [0]).tile 0).seq.wait = .hold 0 (.bar 3 false) 0x40 ∧
    (afind (held (.bar 3 true) 7 []).plots 0).map (fun pl => (pl.pauseMp, pl.held)) = some (0, []) ∧
    (holdEntry (held (.bar 3 true) 7 []) 0 0).timeout = 7 ∧ 4000 * 7 ≤ (held (.bar 3 true) 7 []).mp - 0 ∧
    ((held (.bar 3 true) 7 []).tile 0).pend = [] ∧ ((held (.bar 3 true) 7 []).tile 0).trap.sup = false ∧
    ((held (.bar 3 true) 7 []).tile 0).seq.skip = false := by decide +kernel
/-- The plot of held has a row open in its scheduled stratum. -/
def heldOpen : State := (held (.bar 3 false) 0 [0]).mapTile 0 (fun t => { t with vault := (opened.tile 0).vault })
theorem test_a_pause_ends_with_rows_open :
    after (exec (.holdRelease 0) heldOpen) (fun t => (afind t.plots 0).map (fun pl => (pl.st, pl.guardMp)) == some (.running, 48) &&
      ((t.tile 0).vault.bank 18).state == 1) = true := by decide +kernel
theorem test_holds :
    after (exec (.holdRelease 0) (held (.bar 3 false) 0 [0])) (fun t => (afind t.plots 0).map (·.st) == some .running &&
      (t.tile 0).seq.wait == .none && (t.tile 0).regs.flags == 0x21) = true ∧
    after (exec (.holdto 0) (held (.bar 3 true) 7 [])) (fun t => (afind t.plots 0).map (·.st) == some .running &&
      (t.tile 0).trap.tcause == 0x1C && (t.tile 0).trap.tval == (trapAt 0x1C 0x40 0xC0 0).tval && (t.tile 0).trap.tscyc == 6) = true := by
  decide +kernel
def longRun (mp : Nat) : State := { base id with mp := mp }
def stopping : State := base (fun t => { t with trap := { t.trap with stopAt := some (5, 9) } })
theorem test_meets_requests : ((afind (longRun 800001).plots 0).map (fun pl => (pl.tt.holdmax * 4000, pl.holdMp))) = some (800000, 0) ∧
    (afind (longRun 800001).plots 0).map (fun pl => (pl.taken.isNone, pl.forced.isNone, pl.overdue)) = some (true, true, false) ∧
    firstOf (stopping.boundary 0) = some (7, ⟨0x16, 9, false⟩, none) ∧ (stopping.tile 0).turn = false ∧ (stopping.tile 0).pend = [] ∧
    (stopping.tile 0).trap.stopAt ≠ none ∧ (stopping.tile 0).seq.skip = false := by
  decide +kernel
theorem test_requests :
    after (exec (.plotOverdue 0) (longRun 800001)) (fun t => (afind t.plots 0).map (·.overdue) == some true) = true ∧
    gives (exec (.plotOverdue 0) (longRun 800000)) (longRun 800000) = true ∧
    after (exec (.preemptRequest 0 0xE1) (base id)) (fun t => (afind t.plots 0).map (·.stops) == some [⟨.preempt, 0xE1, 0, 0⟩]) = true ∧
    after (exec (.preemptRequest 0 0xE1) (plot (base id) (fun pl => { pl with overdue := true }))) (fun t =>
      (afind t.plots 0).map (·.forced) == some (some (5, ⟨.preempt, 0xE1, 0, 0⟩))) = true ∧
    after (exec (.preemptRequest 0 0xE1) (plot (base (fun t => { t with turn := true })) (fun pl => { pl with overdue := true }))) (fun t =>
      (afind t.plots 0).map (·.forced) == some (some (6, ⟨.preempt, 0xE1, 0, 0⟩))) = true ∧
    after (exec (.plotStopArrival 0) stopping) (fun t => (t.tile 0).trap.tcause == 0x16 && (t.tile 0).trap.tval == 9) = true := by
  decide +kernel
def placing (st : PlotSt) (f : Plot → Plot) : State :=
  { State.reset with pulsed := true, plotNo := 1, plots := [(0, f { runningPlot bareTimetable 0 with st := st })] }
def anImage : Saved := ⟨{ Tile.reset with plot := some 0, regs := { Regs.reset with flags := 1, pflags := 2, sc := [(1, 7)] } }, 9, [], [], [], [], []⟩
def preempted : State := placing .preempted (fun pl => { pl with saved := [(0, anImage)] })
def armed : State := plot (base id) (fun pl => { pl with st := .armed, overrun := true })
def forced : State := plot { base (fun t => { sc [(1, 7)] t with trap := { t.trap with evec := 0x80 } }) with mem := [(2 ^ 48 + 0xBFFFF, 9), (2 ^ 48 + 0xC0000, 8)] }
  (fun pl => { pl with forced := some (5, ⟨.therm, 0xF3, 1, 2⟩) })
theorem test_meets_PlotsAreArmedStoppedAndResumed :
    (placing .placing id).rectFree { runningPlot bareTimetable 0 with st := .placing } 31 15 = true ∧
    (placing .placing id).choose { runningPlot bareTimetable 0 with st := .placing, x0 := 31, y0 := 15 } = some 0 ∧
    ((placing .placing id).tile (tileIdx 31 15)).plot = none ∧ (armed.tile 0).plot = some 0 ∧
    (afind preempted.plots 0).map (fun pl => (pl.w, pl.h, pl.saved.length, preempted.rectFree pl 31 15,
      preempted.resumeVariant { pl with x0 := 31, y0 := 15 } == some pl.variant)) = some (1, 1, 1, true, true) ∧
    (afind forced.plots 0).map (fun pl => (pl.st == .running, pl.forced.isSome, pl.scyc, tileOfRank pl 0)) = some (true, true, 5, 0) ∧
    (afind forced.plots 0).map (·.own) = some [0] ∧ (forced.tile 0).seq.ended = false ∧ armed.queues = [] ∧
    (afind armed.plots 0).map (fun pl => (pl.resumes, pl.reset, pl.own)) = some (false, false, [0]) ∧
    forced.boundary 0 = [] ∧ (forced.ctx 0).migration = none ∧ forced.copiesOf 0 = [] ∧ (forced.tile 0).dyn = [] := by decide +kernel
theorem test_plots_are_armed_and_start :
    after (exec (.plotArming 0 31 15) (placing .placing (fun pl => { pl with tt := { pl.tt with entry := 0x40, rngKey0 := 9 } }))) (fun t =>
      (afind t.plots 0).map (fun p => (p.st, p.x0, p.y0)) == some (.armed, 31, 15) && (t.tile 511).plot == some 0 &&
      (t.tile 511).seq.pc == 0x40 && (t.tile 511).regs.rngKey0 == 9) = true ∧
    after (exec (.startPulse 0) armed) (fun t => (afind t.plots 0).map (fun p => (p.st, p.overrun)) == some (.running, false)) = true := by
  decide +kernel
theorem test_plots_resume_and_stop :
    after (exec (.plotResume 0 31 15) preempted) (fun t => (afind t.plots 0).map (fun p => (p.st, p.resumes)) == some (.armed, true) &&
      (t.tile 511).plot == some 0 && (t.tile 511).regs.flags == 3 && (t.tile 511).regs.pflags == 0 && (t.tile 511).regs.sc == [(1, 7)]) = true ∧
    after (exec (.forcedStop 0) forced) (fun t => (afind t.plots 0).map (fun p => (p.taken, p.forced, p.saved.map (fun q =>
        (q.1, q.2.place, q.2.spad, q.2.tile.regs.sc)))) == some (some (StopKind.therm.code, 5, true), none, [(0, 0, [(0xBFFFF, 9)], [(1, 7)])]) &&
      (t.tile 0).trap.sup && (t.tile 0).seq.pc == 0x80 && (t.tile 0).trap.tval == stopVal 0xF3 1 2 true 0) = true := by
  decide +kernel
def ending : State := base (fun t => { t with seq := { t.seq with ended := true } })
/-- Two tiles of a timetable whose must-save declaration is charged, the first ended. -/
def leaving (c : Bool) : State := plot (pair (fun t => { t with seq := { t.seq with ended := true } })) (fun pl => { pl with w := 2, charged := c })
theorem test_meets_tiles_that_leave : (leaving true).freeable 0 = true ∧ (leaving false).freeable 0 = true ∧
    (afind (leaving true).plots 0).map (fun pl => (pl.tileList, pl.charged)) = some ([0, 1], true) ∧
    ((leaving true).tile 1).plot = some 0 := by decide +kernel
theorem test_a_tile_that_leaves_is_kept :
    after (exec (.tileFreed 0) (leaving true)) (fun t => (afind t.plots 0).map (fun pl => pl.freed.map (fun q => (q.1, q.2.place))) == some [(0, 0)]) = true ∧
    after (exec (.tileFreed 0) (leaving false)) (fun t => (afind t.plots 0).map (fun pl => pl.freed.map (fun q => (q.1, q.2.spad))) == some [(0, [])]) = true := by decide +kernel
def paused (f : Cluster → Cluster) : State :=
  { plot (base id) (fun pl => { pl with st := .paused }) with clusters := [(0, f Cluster.reset)] }
theorem test_meets_TilesAreFreedAndRetentionKeepsThem :
    ending.freeable 0 = true ∧ (ending.tile 0).trap.first = none ∧ (afind ending.plots 0).map (fun pl => (pl.tileList, pl.ended.isNone, pl.taken.isNone)) = some ([0], true, true) ∧
    (∀ p ∈ ending.plots, p.2.st ≠ .armed) ∧ (paused id).plotsOn 0 ≠ [] ∧ (∀ p ∈ (paused id).plotsOn 0, p.2.st = .paused) ∧
    (∀ p ∈ (paused id).plots, p.2.stops = [] ∧ p.2.reset = false) ∧ (paused id).queues = [] ∧ ending.queues = [] ∧ ((paused (fun k => { k with retained := true })).cluster 0).retained = true ∧
    (paused id).plots.map (fun p => (p.1, p.2.clusters, (paused id).tilesOf p.1 p.2)) = [(0, [0], [0])] := by decide +kernel
theorem test_tiles_are_freed :
    after (exec (.tileFreed 0) ending) (fun t => (t.tile 0).plot == none && (afind t.plots 0).map (·.st) == some .done) = true ∧
    after (exec (.retentionEntry 0) (paused id)) (fun t => (t.cluster 0).retained) = true ∧
    after (exec (.retentionExit 0 true) (paused (fun k => { k with retained := true }))) (fun t => !(t.cluster 0).retained) = true ∧
    after (exec (.retentionExit 0 false) (paused (fun k => { k with retained := true }))) (fun t => !(t.cluster 0).retained &&
      (t.tile 0).trap.tcause == 0x1B && (t.tile 0).trap.sup) = true := by decide +kernel

/-! #### Queues -/

def aPkt : Pkt := ⟨3, 5, true, false⟩
def qDesc : Nat := 2 ^ 241 + 0x40 * 2 ^ 260 + 1 * 2 ^ 272 + 12 * 2 ^ 251
/-- Queue 3 with a packet to start, over host memory. -/
def queued (i : Option Packet) (f : Queue → Queue) : State :=
  { ranged hostRange id with queues := [(3, f { Queue.reset with desc := BitVec.ofNat 512 qDesc, enabled := true, next := i })] }
theorem test_meets_mayStart : mayStart (queued (some (.fencek aPkt)) id) aPkt (.fencek aPkt) ∧
    mayStart (queued (some (.signal aPkt 0x40 1 true true)) id) aPkt (.signal aPkt 0x40 1 true true) ∧
    mayStart (queued (some (.wait aPkt 0x44 1 false .ge 7)) id) aPkt (.wait aPkt 0x44 1 false .ge 7) ∧
    mayStart (queued (some (.callib aPkt 0x1000 8)) id) aPkt (.callib aPkt 0x1000 8) ∧
    mayStart (queued (some (.launch aPkt 0 0)) id) aPkt (.launch aPkt 0 0) ∧
    mayStart (queued (some (.copy aPkt 0x80 0)) id) aPkt (.copy aPkt 0x80 0) ∧
    mayStart (queued (some (.graph aPkt 0x2000 4 1 0)) id) aPkt (.graph aPkt 0x2000 4 1 0) ∧
    mayStart (queued (some (.retib aPkt)) id) aPkt (.retib aPkt) ∧
    mayStart (queued (some (.markk aPkt 9)) id) aPkt (.markk aPkt 9) := by
  unfold mayStart
  decide +kernel
/-- Bytes at virtual addresses of host memory. -/
def stored (l : List (Nat × List Byte)) (s : State) : State :=
  { s with mem := l.foldl (fun m p => Memory.write m (2 ^ 51 + p.1) p.2) s.mem }
/-- A timetable of one tile and one variant, its descriptor at 0x1000 and its variant table at 0x2000. -/
def aTimetable : List (Nat × List Byte) :=
  [(0x1000, leBytes 128 (200 * 2 ^ 221 + 2 ^ 304 + 0x2000 * 2 ^ 704 + 7 * 2 ^ 352)),
   (0x2000, leBytes 32 (100 * 2 ^ 144 + 2 ^ 128 + 8 * 2 ^ 96))]
def launching (va : BitVec 64) : State := { stored aTimetable (queued (some (.launch aPkt va 0)) id) with plotNo := 1 }
/-- A TIMED node, and an END node that follows it. -/
def aGraph : List (Nat × List Byte) :=
  [(0x2000, leBytes 64 (1 + 1 * 2 ^ 8 + 1 * 2 ^ 96)), (0x2040, leBytes 64 (6 + 1 * 2 ^ 64))]
def graphing : State := stored aGraph (queued (some (.graph aPkt 0x2000 4 2 0)) id)
def loomDesc : BitVec 512 := BitVec.ofNat 512 (64 * 2 ^ 128 + 0x1000 * 2 ^ 64 + 0x40)
def copyQueued : State := stored [(0x80, leBytes 64 loomDesc.toNat)] (queued (some (.copy aPkt 0x80 0)) id)
def signalling : State := queued (some (.signal aPkt 0x40 5 true true)) id
def buffered (i : Packet) (n : Nat) : State := queued (some i) (fun k => { k with bufs := List.replicate n (0x40, 0, 9) })
theorem test_meets_PacketsStartTheirWork :
    ((buffered (.callib aPkt 0x1000 8) 3).queue 3).bufs.length = 3 ∧ (buffered (.callib aPkt 0x1000 8) 3).startable 3 = true ∧
    ((buffered (.callib aPkt 0x1000 8) 4).queue 3).bufs.length = 4 ∧ (buffered (.callib aPkt 0x1000 8) 4).startable 3 = true ∧
    ((buffered (.retib aPkt) 1).queue 3).bufs ≠ [] ∧ ((buffered (.retib aPkt) 0).queue 3).bufs = [] ∧
    signalling.heldPage 0 0x40 = false ∧ signalling.reach (loomAgent 0 true) 0x40 .write = .ok [2 ^ 51 + 0x40] ∧
    (match (launching 0x1000).admitTt 0 0x1000 with | .ok t => t.imageId == 7 | .error _ => false) = true ∧
    (match (launching 0x20000).admitTt 0 0x20000 with | .ok _ => false | .error e => e == 1) = true ∧
    copyQueued.memErr (2 ^ 51 + 0x80) 64 = false ∧ copyQueued.reach (loomAgent 0 true) 0x80 .read = .ok [2 ^ 51 + 0x80] ∧
    loomDesc = BitVec.ofNat 512 (leNat (Memory.read copyQueued.mem (2 ^ 51 + 0x80) 64)) ∧ descCheck loomDesc 0 true = none ∧
    copyQueued.queues.map (fun q => (q.1, q.2.jobs)) = [(3, [])] ∧ (copyQueued.cluster 32).copies = [] ∧
    (∀ x ∈ copyQueued.plots, x.2.reset = false) ∧
    (match graphing.readNodes 0 0x2000 2 with | .ok ns => ns.map (fun n => (n.pred, n.type)) == [(0, 1), (1, 6)] | .error _ => false) = true := by
  decide +kernel
theorem test_packets_start :
    after (exec (.callib aPkt 0x1000 8) (buffered (.callib aPkt 0x1000 8) 3)) (fun t => (t.queue 3).bufs.length == 4 &&
      (t.queue 3).bufs.head? == some (0x1000, 0, 8)) = true ∧
    after (exec (.callib aPkt 0x1000 8) (buffered (.callib aPkt 0x1000 8) 4)) (fun t => (t.queue 3).stopped && t.msix == [64]) = true ∧
    after (exec (.signal aPkt 0x40 5 true true) signalling) (fun t =>
      leNat (Memory.read t.mem (2 ^ 51 + 0x40) 8) == 0x010203040506070D && t.msix == [64]) = true ∧
    after (exec (.launch aPkt 0x1000 0) (launching 0x1000)) (fun t => t.plotNo == 2 && (afind t.plots 1).map (·.tt.imageId) == some 7 &&
      (t.queue 3).jobs.map (·.kind) == [.launch 1]) = true ∧
    after (exec (.copy aPkt 0x80 0) copyQueued) (fun t => (t.cluster 32).copies.map (fun c => (c.desc, c.q)) == [(loomDesc, 3)] &&
      (t.queue 3).jobs.map (·.kind) == [.copy]) = true := by
  decide +kernel
/-- A MARKK of context 1, whose partition has a ring of 64 records at tail 65. -/
def marking : State :=
  let s := queued (some (.markk aPkt 0xABCD)) (fun k => { k with desc := BitVec.ofNat 512 (qDesc + 2 ^ 242) })
  { s with
    rings := [(0, ⟨2 ^ 51 + 0x1000, 6, 2 ^ 51 + 0x40, 0⟩)]
    mem := Memory.write s.mem (2 ^ 51 + 0x40) (leBytes 8 65 ++ leBytes 8 10) }
/-- A FENCEK behind a request of the Loom that is held, and a CALLIB too deep whose reset record lies in a page that moves. -/
def behind : State := (queued (some (.fencek aPkt)) id).mapCtx 0 (fun x => { x with late := [.irq 3 false] })
def unwritable : State := (queued (some (.callib aPkt 0x1000 8)) (fun k => { k with
  desc := BitVec.ofNat 512 (qDesc + 0x80000 * 2 ^ 320), bufs := List.replicate 4 (0x40, 0, 9) })).mapCtx 0 (fun x =>
    { x with migration := some (0x80040, 0) })
theorem test_meets_packets_with_records : (marking.queue 3).ctx = 1 ∧ (marking.queue 3).next = some (.markk aPkt 0xABCD) ∧
    marking.nextQueue = some 3 ∧ marking.partOf 1 = 0 ∧ leNat (Memory.read marking.mem (2 ^ 51 + 0x40) 8) = 65 ∧
    leNat (Memory.read marking.mem (2 ^ 51 + 0x48) 8) = 10 ∧ (65 + 2 ^ 64 - 10) % 2 ^ 64 + 2 < 2 ^ 6 ∧
    behind.nextQueue = some 3 ∧ (behind.ctx 0).late ≠ [] ∧ mayStart unwritable aPkt (.callib aPkt 0x1000 8) ∧
    ¬ openRec unwritable 3 ∧ resetRec unwritable 3 ≠ 0 ∧ openRec behind 3 ∧
    (match graphing.readNodes 0 0x2001 2 with | .ok _ => false | .error e => e == 0x19) = true := by
  unfold mayStart openRec resetRec
  decide +kernel
theorem test_packets_with_records :
    after (exec (.markk aPkt 0xABCD) marking) (fun t => leNat (Memory.read t.mem (2 ^ 51 + 0x1050) 8) ==
      0x51 * 2 ^ 56 + 1 * 2 ^ 50 + 0xABCD && Memory.get t.mem (2 ^ 51 + 0x40) == 68) = true ∧
    after (exec (.fencek aPkt) behind) (fun t => t.msix == [] && (t.ctx 0).late == [.irq 3 false, .irq 3 false]) = true ∧
    after (exec (.callib aPkt 0x1000 8) unwritable) (fun t => t.msix == [] && (t.queue 3).stopped &&
      (t.ctx 0).late.getLast? == some (.irq 3 true)) = true ∧
    after (exec (.launch aPkt 0x20000 0) (launching 0x20000)) (fun t => t.plots == (launching 0x20000).plots &&
      t.manifest.length == 1) = true := by decide +kernel
/-- A ring of 1024 words at 0x4000 whose first packet is a WAIT. -/
def ringDesc : Nat := 2 ^ 241 + 1 * 2 ^ 242 * 0 + 10 * 2 ^ 251 + 0x40 * 2 ^ 260 + 2 * 2 ^ 272 + 3 * 2 ^ 280 + 5 * 2 ^ 296 + 0x4000 * 2 ^ 448 + 0x5000 * 2 ^ 384
def ring (f : Queue → Queue) : State :=
  let s := stored [(0x4000, leBytes 32 (0x04000602 + 0x40 * 2 ^ 32 + 7 * 2 ^ 96 + 2 * 2 ^ 160 + 9 * 2 ^ 192))]
    (queued none (fun k => f { k with desc := BitVec.ofNat 512 ringDesc, tail := 7 }))
  { s with mp := 40000, boot := { s.boot with state := 1 } }
def waits (val : BitVec 64) (k : Queue) : Queue :=
  { k with jobs := [⟨3, 0, true, 0, .wait 0x40 val true .eq 9, 4000, 0⟩], irqs := 1, irqMp := 0 }
theorem test_meets_QueuesAndGraphsAreServed :
    ((ring id).queue 4).enabled = false ∧ ((ring id).queue 4).resetting = false ∧
    (BitVec.ofNat 512 ringDesc).getLsbD 241 = true ∧ goodQueue ringDesc = true ∧ goodQueue (ringDesc + 1) = false ∧
    goodQueue (ringDesc + 12 * 2 ^ 251) = true ∧ goodQueue (ringDesc + 13 * 2 ^ 251) = false ∧
    ((ring id).queue 3).enabled = true ∧ (2 ^ 22 - 1 < 2 ^ 22) ∧ (ring id).boot.state = 1 ∧
    ((ring id).queue 3).next = none ∧ ((ring id).queue 3).bufs = [] ∧
    (match (ring id).readPacket ((ring id).queue 3) 3 0 7 (fun j => 0x4000 + 4 * (j % 1024)) false with
      | .packet i bar w => i == .wait ⟨3, 0, true, false⟩ 0x40 7 false .ge 9 && !bar && w == 7 | _ => false) = true ∧
    (((ring (waits 0x0102030405060708)).queue 3).waiting).map (·.id) = some 3 ∧
    (match (ring (waits 0x0102030405060708)).loomCompare 0 0x40 0x0102030405060708 true .eq with | .ok b => b | .error _ => false) = true ∧
    (match (ring (waits 0)).loomCompare 0 0x40 0 true .eq with | .ok b => !b | .error _ => false) = true ∧
    4000 * 9 ≤ (ring (waits 0)).mp - 4000 ∧ ((ring (waits 0)).queue 3).irqs ≠ 0 ∧
    4000 * ((ring (waits 0)).queue 3).fld 280 16 ≤ (ring (waits 0)).mp - ((ring (waits 0)).queue 3).irqMp ∧
    (ring (fun k => { k with next := some (.markk aPkt 9) })).startable 3 = true ∧
    4000 * ((ring id).queue 3).fld 296 24 ≤ (ring id).mp - ((ring id).queue 3).readyMp ∧ ((ring id).queue 3).level < 7 := by
  decide +kernel
/-- The same ring with a reserved bit set in the packet. -/
def badRing : State := { ring id with mem := Memory.write (ring id).mem (2 ^ 51 + 0x4000) [6] }
theorem test_meets_a_bad_packet : (match badRing.readPacket (badRing.queue 3) 3 0 7 (fun j => 0x4000 + 4 * (j % 1024)) false with
      | .error e _ w => e == 0x10 && w == 7 | _ => false) = true ∧
    after (exec (.ringRead 3) badRing) (fun t => (t.queue 3).head == 7 && (t.queue 3).stopped &&
      Memory.get t.mem (2 ^ 51 + 0x5000) == 7) = true := by decide +kernel
def idle (f : Queue → Queue) : State := plot (ring (fun k => f { k with tail := 0 })) (fun pl => { pl with q := 9 })
theorem test_meets_queue_resets :
    (idle id).queues.map (fun q => (q.1, q.2.next.isNone && q.2.jobs == [] && q.2.graphs == [] && q.2.bufs == [] && q.2.head == q.2.tail)) =
      [(3, true)] ∧ ((idle id).queue 3).enabled = true ∧
    ((idle (fun k => { k with resetting := true })).queue 3).resetting = true ∧
    (∀ x ∈ (idle id).plots, x.2.q ≠ 3 ∧ x.2.reset = false) ∧ ((idle id).cluster 32).copies = [] ∧
    ((idle id).ctx 0).late = [] ∧ (((idle id).mapCtx 0 (fun x => { x with late := [.irq 3 false] })).ctx 0).late ≠ [] := by
  decide +kernel
theorem test_queues :
    after (exec (.queueEnable 4 (BitVec.ofNat 512 ringDesc)) (ring id)) (fun t => (t.queue 4).enabled && (t.queue 4).readyMp == 40000) = true ∧
    after (exec (.doorbell 3 (BitVec.ofNat 32 (2 ^ 22 - 1))) (ring id)) (fun t => (t.queue 3).tail == 1023) = true ∧
    gives (exec (.doorbell 3 (BitVec.ofNat 32 (2 ^ 22))) (ring id)) (ring id) = true ∧
    after (exec (.ringRead 3) (ring id)) (fun t => (t.queue 3).head == 7 && Memory.get t.mem (2 ^ 51 + 0x5000) == 7 &&
      (t.queue 3).next == some (.wait ⟨3, 0, true, false⟩ 0x40 7 false .ge 9)) = true ∧
    after (exec (.waitSatisfied 3) (ring (waits 0x0102030405060708))) (fun t => (t.queue 3).jobs == [] && t.msix == [64]) = true ∧
    after (exec (.waitTimeout 3) (ring (waits 0))) (fun t => (t.queue 3).stopped && t.msix == [64]) = true ∧
    after (exec (.queueReset 3) (idle id)) (fun t => (t.queue 3).resetting && !(t.queue 3).enabled) = true := by
  decide +kernel
/-- A graph of a TIMED node 0, a SIGNAL node 1 that node 2 follows, and END nodes 2 and 3. -/
def graphed (pred : BitVec 16) (st : BitVec 4) : State :=
  let n (x : Nat) (p : BitVec 16) (s : BitVec 4) : GNode := ⟨BitVec.ofNat 512 x, p, s, false⟩
  let g : GraphRun := ⟨1, 0x2000, 4, [n (1 + 0x1000 * 2 ^ 192 + 10 * 2 ^ 256) pred 0, n (4 + 2 ^ 8 + 2 * 2 ^ 96) 0 st, n 6 2 0, n 6 1 0], 0, 0, none⟩
  let s := stored aTimetable (queued none (fun k => { k with graphs := [g] }))
  { s with mp := 40, plotNo := 1 }
theorem test_meets_graphs :
    (((graphed 0 1).queue 3).graphs.map (fun g => (g.node 1).map (fun n => n.st == 1 && n.type == 4 && (List.range n.nsucc).map n.succ == [2]))) = [some true] ∧
    (((graphed 0 1).queue 3).graphs.map (fun g => (g.node 2).map (·.pred))) = [some 2] ∧
    (((graphed 0 0).queue 3).graphs.map (fun g => (g.node 0).map (fun n =>
      n.st == 0 && n.type == 1 && n.pred == 0 && !n.timed && n.va == 0x1000 && n.fld 256 40 == 10))) = [some true] ∧ 4 * 10 ≤ (graphed 0 0).mp - 0 ∧
    (match (graphed 0 0).admitTt 0 0x1000 with | .ok t => t.imageId == 7 | .error _ => false) = true := by decide +kernel
theorem test_meets_graphs_that_stop :
    ((graphed 1 1).queue 3).graphs.map (fun g => (g.node 0).map (fun n => n.pred == 1 && n.st == 0 && !n.timed && n.type == 1)) = [some true] ∧
    ((graphed 1 1).queue 3).graphs.map (fun g => (g.node 1).map (·.st)) = [some 1] ∧ ((graphed 1 1).queue 3).graphs.map (·.stop) = [none] ∧ (graphed 0 0).pfail = none := by decide +kernel
theorem test_graphs :
    after (exec (.graphNodeComplete 3 1) (graphed 0 1)) (fun t => (t.queue 3).graphs.map (fun g => g.nodes.map (fun n => (n.st, n.pred))) ==
      [[(0, 0), (2, 0), (0, 1), (0, 1)]]) = true ∧
    after (exec (.timedNodeOffset 3 0) (graphed 0 0)) (fun t => (afind t.plots 1).map (·.node) == some (some 0)) = true ∧
    after (exec (.timedNodeOffset 3 0) (graphed 1 1)) (fun t => (t.queue 3).stopped && t.msix == []) = true := by decide +kernel

/-! #### Power, the start, observation -/

def granted (f : Lease → Lease) : State := plot { base id with mp := 64000 } (fun pl =>
  { pl with scMp := 64000, lease := f { pl.lease with state := 2, us := 16, uj := 100, mp := 0, pulses := 8 } })
def atFrame (mp : Nat) : State := { base id with mp := mp, pulsed := false }
def energetic : State := { granted id with ctxs := [(0, { Ctx.reset with energy := BitVec.ofNat 64 (100 * 1024) })] }
theorem test_meets_PatternsAndLeasesFollowTheArbiter :
    (granted id).mp % 16 = 0 ∧ (atFrame 64000).pulsed = false ∧ (atFrame 64000).pfail = none ∧ 31 < (granted id).model.clusters ∧ (base id).leased 31 = none ∧ (base id).drooped 31 = false ∧
    (afind (granted id).plots 0).map (fun pl =>
      pl.st == .running && pl.scMp == 64000 && pl.split == 0 && pl.live && pl.clusters == [0] && pl.lease.state == 2) = some true ∧
    (∀ p ∈ (base id).plots, p.2.lease.state ≠ 2) ∧
        (granted (fun l => { l with state := 1 })).pfail = none ∧ 16 ≤ ((granted id).mp - 0) / 4000 ∧
    1024 * 100 ≤ (energetic.ctx 0).energy.toNat - (0 : BitVec 64).toNat ∧ (granted id).tilesOf 0 (runningPlot bareTimetable 0) = [0] ∧
    (afind energetic.plots 0).map (fun pl =>
      pl.ctx == 0 && pl.lease.uj == 100 && pl.lease.energy == 0 && !pl.lease.again) = some true := by
  decide +kernel
theorem test_power :
    after (exec (.patternChange 31 8) (atFrame 64000)) (fun t => ((t.cluster 31).allot, (t.cluster 31).pat) == (8, 8)) = true ∧
    after (exec (.patternChange 31 16) { atFrame 64000 with powerLimit := 1400 }) (fun t => (t.cluster 31).allot == 8) = true ∧
    gives (exec (.patternChange 31 8) (atFrame 64001)) (atFrame 64001) = true ∧
    gives (exec (.patternChange 31 8) { base id with mp := 64000 }) { base id with mp := 64000 } = true ∧
    after (exec (.splitChange 0 2) (granted id)) (fun t => (afind t.plots 0).map (·.split) == some 2) = true ∧
    gives (exec (.splitChange 0 2) ((granted id).mapTile 0 (fun t => { t with turn := true })))
      ((granted id).mapTile 0 (fun t => { t with turn := true })) = true ∧
    after (exec (.droop 0) (granted id)) (fun t => (afind t.plots 0).map (fun pl => (pl.lease.state, pl.lease.reason)) == some (3, 7) &&
      afind t.droops 0 == some 68000) = true ∧
    after (exec (.leaseGrant 0) (granted (fun l => { l with state := 1, ask := 16 }))) (fun t =>
      (afind t.plots 0).map (fun pl => (pl.lease.state, pl.lease.mp, pl.lease.pulses)) == some (2, 64000, 16)) = true ∧
    after (exec (.leaseDeny 0 2) (granted (fun l => { l with state := 1 }))) (fun t =>
      (afind t.plots 0).map (fun pl => (pl.lease.state, pl.lease.reason)) == some (3, 2)) = true ∧
    after (exec (.leaseDurExpiry 0) (granted id)) (fun t => (afind t.plots 0).map (fun pl => pl.lease.reason) == some 5) = true ∧
    after (exec (.leaseCapReached 0) energetic) (fun t => (afind t.plots 0).map (fun pl => pl.lease.reason) == some 6) = true := by
  decide +kernel
def failing (f : Plot → Plot) (mp : Nat) : State := plot { base id with pfail := some ⟨0, 0, 0, []⟩, mp := mp } f
def asked (pl : Plot) : Plot := { pl with pfailAt := some 0 }
def finished (pl : Plot) : Plot := { pl with st := .done }
theorem test_meets_SupplyLossAndStart :
    (base id).pfail = none ∧ (failing id 0).pfail ≠ none ∧
    (afind (failing asked 800000).plots 0).map (fun pl =>
      pl.st == .running && pl.taken.isNone && pl.pfailAt == some 0 && !pl.overdue && pl.forced.isNone) = some true ∧
    (∀ p ∈ (failing finished 0).plots, p.2.st ≠ .running ∧ p.2.st ≠ .paused) ∧
    (∃ p ∈ (failing id 0).plots, p.2.st = .running ∨ p.2.st = .paused) ∧ (∀ p ∈ (failing finished 0).plots, p.2.charged = false) ∧
    State.reset.boot.retrain = false := by decide +kernel
def aStart (n : Nat) : StartRun := ⟨BitVec.ofNat 8 n, [], [], [], [], 0⟩
/-- A plot that has stopped with a must-save item of its register state, charged. -/
def charged : State := failing (fun pl => { pl with st := .faulted, charged := true, saved := [(0, anImage)], tt := { pl.tt with
  imageId := 0x12345678, musts := [⟨0, 0, 3, 0, true, 0⟩] } }) 9
theorem test_meets_the_keep_store : charged.keepReady = true ∧ charged.items.length = 1 ∧
    charged.chunkList.map (fun c => (c.item, c.rank, c.index, c.m.chunkCost)) = [(0, 0, 0, 20)] ∧
    (charged.plots.all (fun p => p.2.charged)) = true := by decide +kernel
theorem test_supply_and_start :
    after (exec .supplyLoss (granted id)) (fun t => (afind t.plots 0).map (fun pl => (pl.lease.state, pl.lease.reason)) == some (3, 4)) = true ∧
    after (exec (.pfailArrival 0) (failing id 7)) (fun t => (afind t.plots 0).map (fun pl => (pl.pfailAt, pl.stops)) == some (some 7, [⟨.pfail, 0xE8, 0, 0⟩])) = true ∧
    after (exec (.pfailHoldTimeout 0) (failing asked 800000)) (fun t => (afind t.plots 0).map (·.forced) == some (some (5, ⟨.pfail, 0xE8, 0, 0⟩))) = true ∧
    after (exec .keepStoreSave { failing finished 9 with pfail := some ⟨8, 0, 0, []⟩ }) (fun t => t.down && Memory.get t.keep 56 == 2) = true ∧
    after (exec (.moduleStart (aStart 0)) { failing id 9 with down := true }) (fun t => t.boot.state == 1 && t.boot.last == 8 && !t.down && t.mp == 0) = true ∧
    after (exec (.moduleStart (aStart 1)) State.reset) (fun t => t.boot.state == 3 && t.boot.fail == 1 && t.boot.journal == [(1, 1), (1, 3)]) = true := by
  decide +kernel
/-- A keep store whose restart record has one entry, of context 3 and class 2, and no chunk. -/
def recorded : State := { State.reset with keep := Memory.write (Memory.write [] 52 [1]) 64 (leBytes 32 (3 * 2 ^ 26 + 2 * 2 ^ 17)) }
theorem test_restart_record : restartEntries recorded.keep = [3 * 2 ^ 26 + 2 * 2 ^ 17] ∧
    after (exec (.moduleStart (aStart 0)) recorded) (fun t => t.restartRead == [3 * 2 ^ 26 + 1 * 2 ^ 14]) = true ∧
    after (exec (.moduleStart (aStart 0x20)) recorded) (fun t => t.restartRead == [] && t.boot.fail == 6 && t.boot.state == 2) = true ∧
    after (exec (.moduleStart { aStart 0 with cut := 3 }) recorded) (fun t => t.down && t.boot.last == 3 && t.boot.retrain) = true ∧
    gives (exec (.moduleStart (aStart 0)) (failing id 9)) (failing id 9) = true := by decide +kernel
theorem test_droop_ends :
    after (exec (.droopFloorEnd 1) { base id with droops := [(1, 4000)], mp := 4000 }) (fun t => t.droops == []) = true ∧
    gives (exec (.droopFloorEnd 1) { base id with droops := [(1, 4000)], mp := 3999 }) { base id with droops := [(1, 4000)], mp := 3999 } = true := by
  decide +kernel
/-- Partition 0 samples every 4096 mp into a ring of 64 records, and has a counter block. -/
def observed : State :=
  let s := plot (base id) (fun pl => { pl with ctx := 1 })
  { s with
    mp := 4096 * 40
    parts := [(0, { Part.reset with sampling := 4096, blockPa := 2 ^ 51 + 0x80 })]
    rings := [(0, ⟨2 ^ 51 + 0x1000, 6, 2 ^ 51 + 0x40, 0⟩)]
    mem := Memory.write [] (2 ^ 51 + 0x40) (leBytes 8 65 ++ leBytes 8 2) }
def linked : State := { base id with links := [(2, { Link.reset with state := 2, stream := true })] }
theorem test_meets_ObservationLinksAndAttestation :
    (observed.plotOf 0).map (·.ctx) = some 1 ∧ observed.sampleDue 0 = true ∧ observed.partOf 1 = 0 ∧
    leNat (Memory.read observed.mem (2 ^ 51 + 0x40) 8) = 65 ∧ leNat (Memory.read observed.mem (2 ^ 51 + 0x48) 8) = 2 ∧
    (65 + 2 ^ 64 - 2) % 2 ^ 64 < 2 ^ 6 ∧ 2 ^ 51 + 0x48 ≤ 2 ^ 51 + 0x1000 ∧
    (afind observed.parts 0).map (fun p => p.blockPa != 0) = some true ∧ 0 < observed.model.links ∧ (linked.link 2).state = 2 ∧
    (observed.measure 1).isSome = true ∧ observed.measure 0 = none ∧ (observed.measure 16).isSome = true := by decide +kernel
theorem test_observation :
    after (exec (.pcSample 0) observed) (fun t => leNat (Memory.read t.mem (2 ^ 51 + 0x1020) 32) / 2 ^ 184 % 2 ^ 8 == 0x60 &&
      Memory.get t.mem (2 ^ 51 + 0x40) == 66 && t.sampled == [0]) = true ∧
    after (exec (.counterSnapshot 0) observed) (fun t => Memory.get t.mem (2 ^ 51 + 0x80) == 1 &&
      leNat (Memory.read t.mem (2 ^ 51 + 0x88) 8) == 40960) = true ∧
    after (exec (.linkTraining 1 5 6 7 3) linked) (fun t => (t.link 1).state == 2 && (t.link 1).rate == 3 && (t.link 1).peerMod == 5) = true ∧
    gives (exec (.counterSnapshot 0) { observed with mp := 39999 }) { observed with mp := 39999 } = true := by decide +kernel
/-- A plot of 64 columns, which spans link 6 of module 0. -/
def across : State := { plot (base id) (fun pl => { pl with w := 64 }) with links := [(6, { Link.reset with state := 2, stream := true })] }
theorem test_meets_links :
    (afind across.plots 0).map (fun pl => (across.spansLink pl 6, across.tilesOf 0 pl, pl.scyc)) = some (true, [0], 5) ∧
    (across.link 6).state = 2 ∧ (across.tile 0).trap.sup = false ∧ (across.tile 0).trap.stopAt = none ∧
    (linked.link 2).stream = true ∧ (∀ p ∈ linked.plots, linked.spansLink p.2 2 = false) := by decide +kernel
theorem test_links :
    after (exec (.linkLoss (.down 2)) linked) (fun t => (t.link 2).state == 0 && !(t.link 2).stream) = true ∧
    after (exec (.linkLoss (.lane 2)) linked) (fun t => (t.link 2).state == 2 && !(t.link 2).stream) = true ∧
    gives (exec (.linkTraining 6 5 6 7 3) across) across = true ∧
    after (exec (.linkLoss (.down 6)) across) (fun t => (t.link 6).state == 0 &&
      (t.tile 0).trap.stopAt == some (5, 0x60000)) = true ∧
    after (exec (.linkLoss (.down 6)) (plot across (fun pl => { pl with st := .armed }))) (fun t =>
      (afind t.plots 0).map (·.psent) == some (some (5, 0x60000))) = true := by decide +kernel
/-- A table of four levels over virtual page 1: its leaf is the stack of tile 4, in a cluster of band 2. -/
def tabled : State :=
  let s := ranged hostRange id
  let m := [(0x100000, 0x200000), (0x200000, 0x300000), (0x300000, 0x400000)].foldl (fun m p =>
      Memory.write m (2 ^ 51 + p.1) (leBytes 8 (2 ^ 51 + p.2 + 1))) (Memory.write s.mem (2 ^ 51 + 0x400008) (leBytes 8 (4 * 2 ^ 29 + 3)))
  { s with
    ctxs := [(3, { Ctx.reset with ptActive := 2 ^ 51 + 0x100000, ptMem := m })]
    clusters := [(clusterOf 4, { Cluster.reset with band := 2 })]
    tiles := s.tiles ++ [(100, { Tile.reset with vault := { Vault.reset with svcMark := 1 } })]
    mem := m }
def moving : State := tabled.mapCtx 3 (fun x => { x with migration := some (0x80000, 100 * 2 ^ 29) })
/-- A beat in flight writes the page that moves. -/
def filling : State := { moving with clusters := moving.clusters ++ [(0, { Cluster.reset with copies :=
  [{ aCopy with ctx := 3, beats := [{ aBeat with pas := [4 * 2 ^ 29 + 64] }] }] })] }
/-- The place to which the page would move is mapped by another context. -/
def occupied : State := { tabled with ctxs := tabled.ctxs ++ [(5, { Ctx.reset with
  ranges := [(0, BitVec.ofNat 256 (2 ^ 63 + 15 * 2 ^ 76 + 7 * 2 ^ 128 + 100 * 2 ^ 17 * 2 ^ 140))] })] }
theorem test_meets_places_of_pages : anyMeet [(100 * 2 ^ 29, 2 ^ 19)] (tabled.liveSpans ++ tabled.slotSpans) = false ∧
    (∀ x ∈ tabled.ctxs, x.2.migration = none) ∧
    anyMeet [(100 * 2 ^ 29, 2 ^ 19)] (occupied.liveSpans ++ occupied.slotSpans) = true ∧
    gives (exec (.pageMigration 3 0x80000 (100 * 2 ^ 29)) occupied) occupied = true := by decide +kernel
theorem test_meets_ThePolicyCoreChangesTheTables :
    hostRange.getLsbD 63 = true ∧ (base id).rangeBad 63 63 (RangeE.clean hostRange) = false ∧
    (ranged hostRange id).rangeBad 0 1 (RangeE.clean hostRange) = true ∧
    tabled.movable 3 0x80000 = some (2 ^ 51 + 0x400008, BitVec.ofNat 64 (4 * 2 ^ 29 + 3)) ∧ (tabled.ctx 3).migration = none ∧
    100 * 2 ^ 29 < 2 ^ 48 ∧ 100 * 2 ^ 29 % 2 ^ 19 = 0 ∧ tabled.localPlace (100 * 2 ^ 29) = .here (100 * 2 ^ 29) ∧
    (tabled.cluster (clusterOf (100 * 2 ^ 29 / 2 ^ 29))).band <
      (tabled.cluster (clusterOf (pteAddr (BitVec.ofNat 64 (4 * 2 ^ 29 + 3)) / 2 ^ 29 % 512))).band ∧
    (moving.ctx 3).migration = some (0x80000, 100 * 2 ^ 29) ∧ Memory.wf moving.mem = true ∧
    moving.leafAddr (moving.ctx 3).ptMem 0x80000 4 0 (moving.ctx 3).ptActive.toNat =
      some (2 ^ 51 + 0x400008, BitVec.ofNat 64 (4 * 2 ^ 29 + 3), 3) ∧ (moving.ctx 3).ptActive ≠ 0 ∧
    moving.beatInto (4 * 2 ^ 29) = none ∧ (moving.ctx 3).late = [] ∧ moving.queues = [] ∧ (filling.beatInto (4 * 2 ^ 29)).isSome = true ∧
    filling.leafAddr (filling.ctx 3).ptMem 0x80000 4 0 (filling.ctx 3).ptActive.toNat =
      some (2 ^ 51 + 0x400008, BitVec.ofNat 64 (4 * 2 ^ 29 + 3), 3) ∧
    (base id).liveCtx 63 = false ∧ (base id).liveCtx 0 = true ∧ (base id).ctxIdle 0 = true ∧ (busyDyn 1).liveCtx 0 = true ∧
    (busyDyn 1).ctxIdle 0 = false ∧ (ranged replicas id).holdsData 4 0 = true ∧ (base id).holdsData 511 2 = false ∧
    100 * 2 ^ 29 + 2 ^ 19 ≤ 2 ^ 51 + 0x400008 ∧ 4 * 2 ^ 29 + 2 ^ 19 ≤ 100 * 2 ^ 29 ∧
    511 < (base id).model.tiles ∧ ((base id).tile 511).plot = none := by decide +kernel
theorem test_the_policy_core :
    after (exec (.rangeEntryInstall 63 63 hostRange) (base id)) (fun t => sget 0 (t.ctx 63).ranges 63 == RangeE.clean hostRange &&
      (t.ctx 63).active == []) = true ∧
    after (exec (.translationInvalidate 63) ((base id).mapCtx 63 (fun x => { x with ranges := [(63, hostRange)], ptroot := 9 }))) (fun t =>
      (t.ctx 63).active == [(63, hostRange)] && (t.ctx 63).ptActive == 9) = true ∧
    after (exec (.pageMigration 3 0x80000 (100 * 2 ^ 29)) tabled) (fun t => (t.ctx 3).migration == some (0x80000, 100 * 2 ^ 29)) = true ∧
    after (exec (.serviceMarkingChange 511 0xC) (base id)) (fun t => (t.tile 511).vault.svcMark == 0xC) = true := by decide +kernel
theorem test_what_the_policy_core_leaves :
    gives (exec (.serviceMarkingChange 4 0) (ranged replicas id)) (ranged replicas id) = true ∧
    gives (exec (.rangeEntryInstall 0 9 hostRange) (busyDyn 1)) (busyDyn 1) = true ∧
    gives (exec (.pageMigrationCopyDone 3) filling) filling = true := by decide +kernel
/-- The host decodes, and a peer reaches, stratum 0 of the service vault of tile 4. -/
def reached : State := { ranged hostRange id with hdm := [(0, 4 * 2 ^ 29, 2 ^ 20)], inbound := [(0, 4 * 2 ^ 29, 2 ^ 20)] }
theorem test_meets_TheHostAndThePolicyCoreAreServed :
    reached.hostReaches (4 * 2 ^ 29 + 2 ^ 20 - 64) 64 = true ∧ reached.memErr (4 * 2 ^ 29 + 2 ^ 20 - 64) 64 = false ∧
    reached.hostReaches (4 * 2 ^ 29) 3 = true ∧ reached.place (4 * 2 ^ 29) = .here (4 * 2 ^ 29) ∧
    reached.place (4 * 2 ^ 48 + 4 * 2 ^ 29) = .here (4 * 2 ^ 29) ∧
    (∃ w ∈ reached.inbound, w.2.1 ≤ 4 * 2 ^ 29 ∧ 4 * 2 ^ 29 + 64 ≤ w.2.1 + w.2.2) ∧ (base id).inbound = [] := by
  refine ⟨by decide +kernel, by decide +kernel, by decide +kernel, by decide +kernel, by decide +kernel, ?_, by decide +kernel⟩
  exact ⟨_, List.mem_singleton.mpr rfl, by decide, by decide⟩
theorem test_the_host_is_served :
    after (exec (.hostCxlMemWrite (4 * 2 ^ 29 + 2) [7, 8]) reached) (fun t => Memory.get t.mem (4 * 2 ^ 29 + 3) == 8 && t.answers == [[]]) = true ∧
    after (exec (.hostCxlMemRead (4 * 2 ^ 29 + 2) 2) { reached with mem := [(4 * 2 ^ 29 + 2, 5)] }) (fun t => t.answers == [[5, 0]]) = true ∧
    after (exec (.peerAccessArrival (4 * 2 ^ 29) ⟨.write [9], none⟩) reached) (fun t => Memory.get t.mem (4 * 2 ^ 29) == 9) = true ∧
    after (exec (.peerAccessArrival (4 * 2 ^ 29) ⟨.atomic .add false 3 0, none⟩) { reached with mem := [(4 * 2 ^ 29, 5)] }) (fun t =>
      Memory.get t.mem (4 * 2 ^ 29) == 8 && t.answers == [[5, 0, 0, 0, 0]]) = true ∧
    after (exec (.registerWrite (.powerLimit 2801)) reached) (fun t => t.powerLimit == reached.powerLimit) = true ∧
    gives (exec (.registerWrite (.group 2 2 3)) reached) reached = true := by decide +kernel
/-- Link 6 ends at module 1: as cabled, this is module 0 of a group of two columns. -/
def cabled : State := { reached with links := [(6, { Link.reset with state := 2, peerMod := 1, peerLink := 0 })] }
theorem test_meets_registers : cabled.cabledGroup = (2, 1, 0) ∧ reached.cabledGroup = (1, 1, 0) ∧ (reached.tile 511).plot = none ∧
    (reached.tile 511).trap.evec = 0 ∧ (reached.tile 0).plot ≠ none ∧ reached.memErr (4 * 2 ^ 29) 4 = false ∧ reached.soft = [] ∧
    (∃ w ∈ reached.inbound, w.2.1 ≤ 4 * 2 ^ 29 ∧ 4 * 2 ^ 29 + wide true ≤ w.2.1 + w.2.2) := by
  refine ⟨by decide +kernel, by decide +kernel, by decide +kernel, by decide +kernel, by decide +kernel, by decide +kernel, by decide +kernel, ?_⟩
  exact ⟨_, List.mem_singleton.mpr rfl, by decide, by decide⟩
/-- A fault record of context 0 that holds one fault, at its header's place. -/
def recordHeld : State := { reached with mem := Memory.write [] (reached.headerPa 0) (leBytes 8 (2 ^ 63 + 5)) }
theorem test_meets_the_policy_core : (leNat (Memory.read recordHeld.mem (recordHeld.headerPa 0) 8)).testBit 63 = true ∧
    (leNat (Memory.read reached.mem (reached.headerPa 63) 8)).testBit 63 = false ∧
    (afind observed.rings 0).isSome = true ∧
    (∃ x ∈ reached.ctxs, anyMeet (reached.ownSpans [(2 ^ 51, 4096)]) (reached.unshared x.2) = true) ∧
    (∀ x ∈ reached.ctxs, anyMeet (reached.ownSpans [(5 * 2 ^ 29, 4096)]) (reached.unshared x.2) = false) ∧
    (∃ x ∈ recorded.restartRead, x / 2 ^ 26 % 2 ^ 6 = 3 ∧ x / 2 ^ 22 % 2 ^ 4 = 0) := by
  refine ⟨by decide +kernel, by decide +kernel, by decide +kernel, ?_, by decide +kernel, by decide +kernel⟩
  exact ⟨_, List.mem_singleton.mpr rfl, by decide +kernel⟩
theorem test_the_policy_core_writes :
    after (exec (.registerWrite (.faultClear 0)) recordHeld) (fun t => leNat (Memory.read t.mem (recordHeld.headerPa 0) 8) == 5) = true ∧
    after (exec (.registerWrite (.counter 7 15 11)) reached) (fun t => aget 0 (t.part 7).codes 15 == 11) = true ∧
    after (exec (.registerWrite (.ringHead 0 9)) observed) (fun t => Memory.get t.mem (2 ^ 51 + 0x48) == 9) = true ∧
    gives (exec (.registerWrite (.hdm 3 (2 ^ 51) 4096)) reached) reached = true ∧
    after (exec (.registerWrite (.hdm 3 (5 * 2 ^ 29) 4096)) reached) (fun t => afind t.hdm 3 == some (5 * 2 ^ 29, 4096)) = true := by
  decide +kernel
theorem test_registers :
    after (exec (.registerWrite (.group 2 1 0)) cabled) (fun t => t.group == (2, 1, 0)) = true ∧
    gives (exec (.registerWrite (.evec 511 0x80)) reached) reached = true ∧
    after (exec (.registerWrite (.monitor 511 65533 [1, 2, 3])) reached) (fun t => (t.tile 511).seq.mstore == [(16383, 0x03020100)]) = true ∧
    gives (exec (.registerWrite (.monitor 511 65534 [1, 2, 3])) reached) reached = true ∧
    after (exec (.registerWrite (.restartItem 3 0)) recorded) (fun t => t.answers.map leNat == [3 * 2 ^ 26 + 2 ^ 14]) = true ∧
    after (exec (.registerWrite (.restartItem 3 15)) recorded) (fun t => t.answers.map leNat == [3 * 2 ^ 26 + 15 * 2 ^ 22]) = true ∧
    after (exec (.registerWrite (.bar0 (0x100000 + 8 * 3) 1023)) (ring id)) (fun t => (t.queue 3).tail == 1023) = true ∧
    after (exec (.registerWrite (.bar0Read (0x100000 + 8 * 3) 1)) (ring id)) (fun t => t.answers == [[0, 0, 0, 0]]) = true ∧
    after (exec (.registerWrite (.bar0 0x1000000 7)) reached) (fun t => sget 0 t.bar0 0x400000 == 7) = true ∧
    after (exec (.registerWrite (.bar0Read 0 2)) (ring id)) (fun t => t.answers == [[1, 0, 0, 0, 0, 0, 0, 0]]) = true ∧
    after (exec (.registerWrite .restartRead) reached) (fun t => t.answers == [List.replicate 64 0]) = true := by decide +kernel

/-! #### Steps and encodings -/

/-- The word of ADDI s1, s2, 5 and of BR -2 at the place where the next step fetches. -/
def placedAddi : State := State.reset.withFetchWord 32 0x18042005
def placedBr : State := State.reset.withFetchWord 32 0x01FFFFFE
theorem test_addi_is_read : decodeTableWord 32 0x18042005 = some (.addi 1 2 5) := by decide
theorem test_addi_runs : Safety.completes (step placedAddi) = true := by decide
theorem test_meets_ATurnRunsTheDecodedOperation : (∃ f, issuesOne placedAddi 0 1 f 0x98042005 0) ∧
    (∃ f, issuesOne placedBr 0 0 f 0x81FFFFFE 0) := by
  unfold issuesOne
  refine ⟨⟨_, by decide +kernel, by decide +kernel, by decide +kernel, ⟨_, rfl, by decide +kernel, by decide +kernel⟩, by decide +kernel,
    by decide +kernel, by decide +kernel, by decide +kernel, by decide +kernel, by decide +kernel, by decide +kernel, by decide +kernel, ?_, by decide +kernel, rfl, by decide +kernel, by decide +kernel, by decide +kernel,
    by decide +kernel, by decide +kernel, by decide +kernel, by decide⟩,
    ⟨_, by decide +kernel, by decide +kernel, by decide +kernel, ⟨_, rfl, by decide +kernel, by decide +kernel⟩, by decide +kernel,
    by decide +kernel, by decide +kernel, by decide +kernel, by decide +kernel, by decide +kernel, by decide +kernel, by decide +kernel, ?_, by decide +kernel, rfl, by decide +kernel, by decide +kernel, by decide +kernel,
    by decide +kernel, by decide +kernel, by decide +kernel, by decide⟩⟩ <;>
  · intro e h
    cases h
theorem test_a_turn_runs_its_operation :
    after (step placedAddi) (fun t => (t.tile 0).pend.length == 1 && (t.tile 0).seq.pc == 12 && (t.tile 0).turn) = true ∧
    after (step placedBr) (fun t => (t.tile 0).seq.pc == 0xFFFFF8) = true := by decide +kernel
theorem test_meets_AStepRunsTheRowThatIsDue :
    { base id with agenda := [.supplyLoss] }.agenda = .supplyLoss :: [] ∧ placedAddi.agenda = [] ∧ placedAddi.down = false ∧
    placedAddi.nextDue = .bundle 0 ∧ { base id with down := true }.agenda = [] ∧ { base id with down := true }.down = true ∧
    classOf (.addi 1 2 5) = some .s ∧ classOf (.br 8) = some .c := by decide +kernel
theorem test_meets_DecodeOfEncode_and_EncodeOfDecode : classOf (.li 4 0x1000) = some .s ∧ wellFormed 48 (.li 4 0x1000) = true ∧
    (match decodeOp 48 .s 0x20100000 0x1000 with | .ok i => i == .li 4 0x1000 | .error _ => false) = true := by decide
theorem test_meets_EveryStepKeepsMemoryCanonical : Safety.Inv (base id) ∧ Safety.Inv placedAddi ∧
    Safety.completes (step placedAddi) = true := by
  unfold Safety.Inv
  decide +kernel

end Sys2Proof.Tests
end

/-! The integer, compare and predicate operations of the scalar slots (13 R243-R248): the value that each definition of
the model computes is the value of the table, and the operation begins that one result and no more. -/
namespace Sys2Proof.ScalarSlots
open Sys2Proof Sys2Proof.Machine Sys2Proof.Claims

/-! ### Operations that begin one result -/

theorem begun_of_scalarRes {i : Instr} {s : State} {lat : Nat} {d : BitVec 6} {f : Tile → BitVec 64}
    {v : BitVec 64} (hs : s.down = false) (hi : exec i s = settle (scalarRes lat d f) s) (hv : f (issuer s) = v) :
    exec i s = .next (begun s [(lat, (issuer s).wScalar d v)]) :=
  hv ▸ hi.trans (settle_scalarRes lat d f s hs)

theorem begun_of_predRes {i : Instr} {s : State} {lat : Nat} {d : BitVec 4} {f : Tile → Bool} {v : Bool}
    (hs : s.down = false) (hi : exec i s = settle (predRes lat d f) s) (hv : f (issuer s) = v) :
    exec i s = .next (begun s [(lat, .pred d.toNat v)]) :=
  hv ▸ hi.trans (settle_predRes lat d f s hs)

/-! ### Shift counts (R243: bits [63:6] are ignored) -/

theorem toNat_and_63 (b : BitVec 64) : (b &&& 63).toNat = cnt6 b :=
  (BitVec.toNat_and b 63).trans (Nat.and_two_pow_sub_one_eq_mod b.toNat 6)

theorem rol64_eq_rotateLeft (a : BitVec 64) (n : Nat) (hn : n < 64) : rol64 a n = a.rotateLeft n := by
  rw [BitVec.rotateLeft_def, Nat.mod_eq_of_lt hn, rol64]
  rcases Nat.eq_zero_or_pos n with rfl | h
  · simp [BitVec.ushiftRight_eq_zero]
  · rw [Nat.mod_eq_of_lt (by omega : 64 - n < 64)]

theorem rol64_cnt6 (a b : BitVec 64) : rol64 a (cnt6 b) = a.rotateLeft (b &&& 63).toNat := by
  rw [toNat_and_63]
  exact rol64_eq_rotateLeft a (cnt6 b) (Nat.mod_lt _ (by decide))

/-! ### Products -/

/-- The upper half of a 128-bit integer is its quotient by 2^64. -/
theorem extractLsb'_ofInt_128 (z : Int) : (BitVec.ofInt 128 z).extractLsb' 64 64 = BitVec.ofInt 64 (z / 2 ^ 64) := by
  apply BitVec.eq_of_toNat_eq
  rw [BitVec.extractLsb'_toNat, BitVec.toNat_ofInt, BitVec.toNat_ofInt, Nat.shiftRight_eq_div_pow]
  omega

theorem ofInt_mul_div_eq_extractLsb' (a b : BitVec 64) :
    BitVec.ofInt 64 (a.toInt * b.toInt / 2 ^ 64) = (a.signExtend 128 * b.signExtend 128).extractLsb' 64 64 := by
  rw [← extractLsb'_ofInt_128, BitVec.ofInt_mul]
  rfl

theorem ofNat_mul_div_eq_extractLsb' (a b : BitVec 64) :
    BitVec.ofNat 64 (a.toNat * b.toNat / 2 ^ 64) = (a.setWidth 128 * b.setWidth 128).extractLsb' 64 64 := by
  have hab : a.toNat * b.toNat < 2 ^ 64 * 2 ^ 64 := Nat.mul_lt_mul'' a.isLt b.isLt
  apply BitVec.eq_of_toNat_eq
  rw [BitVec.extractLsb'_toNat, BitVec.toNat_mul, BitVec.toNat_setWidth_of_le (by decide),
    BitVec.toNat_setWidth_of_le (by decide), BitVec.toNat_ofNat, Nat.shiftRight_eq_div_pow,
    Nat.mod_eq_of_lt (show a.toNat * b.toNat < 2 ^ 128 from hab)]

/-! ### Bit fields (R244) -/

theorem getLsbD_ones (w i : Nat) : (ones w).getLsbD i = decide (i < 64 ∧ i ≤ w) := by
  rw [ones, BitVec.getLsbD_ofNat, Nat.testBit_two_pow_sub_one, ← Bool.decide_and]
  exact decide_eq_decide.mpr (and_congr_right' Nat.lt_succ_iff)

theorem ushiftRight_and_ones (a : BitVec 64) (n w : Nat) :
    (a >>> n) &&& ones w = BitVec.ofNat 64 (a.toNat / 2 ^ n % 2 ^ (w + 1)) := by
  apply BitVec.eq_of_getLsbD_eq
  intro i hi
  rw [BitVec.getLsbD_and, getLsbD_ones, BitVec.getLsbD_ushiftRight, BitVec.getLsbD_ofNat, Nat.testBit_mod_two_pow,
    Nat.testBit_div_two_pow, Nat.add_comm n i]
  simp only [hi, BitVec.testBit_toNat, decide_true, true_and, Bool.true_and, Bool.and_comm, Nat.lt_succ_iff]

theorem inserted_insb (old a : BitVec 64) (p w : Nat) : inserted (insb old a p w) old a p w := by
  intro i hi
  simp only [insb, BitVec.getLsbD_or, BitVec.getLsbD_and, BitVec.getLsbD_not, BitVec.getLsbD_shiftLeft,
    getLsbD_ones, hi]
  by_cases hp : p ≤ i
  · by_cases hw : i ≤ p + w
    · simp [hp, hw, Nat.not_lt.mpr hp, show i - p < 64 ∧ i - p ≤ w by omega]
    · simp [hp, hw, show ¬ i - p ≤ w by omega]
  · simp [hp, Nat.lt_of_not_le hp]

/-! ### Counts of bits -/

theorem leadingZeros_clz64 (a : BitVec 64) : leadingZeros a (clz64 a) := by
  by_cases ha : a = 0
  · exact .inl ⟨ha, if_pos ha⟩
  · have hn : a.toNat ≠ 0 := fun h => ha (BitVec.eq_of_toNat_eq h)
    have hlog : a.toNat.log2 < 64 := (Nat.log2_lt hn).mpr a.isLt
    rw [clz64, if_neg ha]
    refine .inr ⟨by omega, ?_, ?_⟩
    · rw [show 63 - (63 - a.toNat.log2) = a.toNat.log2 by omega]
      exact Nat.log2_self_le hn
    · rw [show 64 - (63 - a.toNat.log2) = a.toNat.log2 + 1 by omega]
      exact Nat.lt_log2_self

theorem popc64_eq_countP (a : BitVec 64) : popc64 a = (List.range 64).countP a.getLsbD :=
  List.countP_eq_length_filter.symm

/-! ### Minimum and maximum -/

theorem signedMin_eq (a b : BitVec 64) : (if a.sle b then a else b) = if b.slt a then b else a := by
  rw [BitVec.sle_eq_not_slt]
  cases b.slt a <;> rfl

theorem unsignedMin_eq (a b : BitVec 64) : (if a.ule b then a else b) = if b.ult a then b else a := by
  rw [BitVec.ule_eq_not_ult]
  cases b.ult a <;> rfl

/-- The two choices differ only on equal numbers, where either operand is the maximum. -/
theorem signedMax_eq (a b : BitVec 64) : (if a.sle b then b else a) = if a.slt b then b else a := by
  by_cases hab : a = b
  · simp [hab]
  · have hlt : a.toInt ≤ b.toInt ↔ a.toInt < b.toInt :=
      ⟨fun h => Int.lt_iff_le_and_ne.mpr ⟨h, mt BitVec.eq_of_toInt_eq hab⟩, Int.le_of_lt⟩
    simp [BitVec.sle_eq_decide, BitVec.slt_eq_decide, hlt]

theorem unsignedMax_eq (a b : BitVec 64) : (if a.ule b then b else a) = if a.ult b then b else a := by
  by_cases hab : a = b
  · simp [hab]
  · have hlt : a.toNat ≤ b.toNat ↔ a.toNat < b.toNat :=
      ⟨fun h => Nat.lt_of_le_of_ne h (mt BitVec.eq_of_toNat_eq hab), Nat.le_of_lt⟩
    simp [BitVec.ule_eq_decide, BitVec.ult_eq_decide, hlt]

/-! ### Compares and predicates (R246, R248) -/

theorem beq_eq_decide_eq {α : Type} [BEq α] [LawfulBEq α] [DecidableEq α] (a b : α) :
    (a == b) = decide (a = b) :=
  Bool.eq_iff_iff.mpr (beq_iff_eq.trans decide_eq_true_iff.symm)

theorem bne_eq_decide_ne {α : Type} [BEq α] [LawfulBEq α] [DecidableEq α] (a b : α) :
    (a != b) = decide (a ≠ b) :=
  Bool.eq_iff_iff.mpr (bne_iff_ne.trans decide_eq_true_iff.symm)

/-- A compare with a sign-extended immediate is a compare with the immediate as a signed number (R245). -/
theorem slt_simm (a : BitVec 64) (i : BitVec 12) : a.slt (simm i) = decide (a.toInt < i.toInt) := by
  rw [BitVec.slt_eq_decide, simm, BitVec.toInt_signExtend_of_le (by decide)]

theorem rp_zero (t : Tile) : t.rp 0 = true := rfl

/-- MOVPS: bit 0 is p0, which reads one, and bits [63:16] are zero. -/
theorem getLsbD_movps (p : BitVec 16) (k : Nat) (hk : k < 64) :
    (BitVec.ofNat 64 (p.toNat / 2 * 2 + 1)).getLsbD k = decide (k = 0 ∨ (k < 16 ∧ p.getLsbD k = true)) := by
  rw [BitVec.getLsbD_ofNat]
  cases k with
  | zero => simp
  | succ k =>
    have hhalf : (p.toNat / 2 * 2 + 1) / 2 = p.toNat / 2 := by omega
    have hbit : p.getLsbD (k + 1) = true → k + 1 < 16 := BitVec.lt_of_getLsbD
    rw [Nat.testBit_succ, hhalf, ← Nat.testBit_succ, BitVec.testBit_toNat]
    simpa [hk] using hbit

/-- The predicates that the mask of a MOVP names. -/
def movpTargets (mask : BitVec 64) : List Nat := (List.range 16).filter (fun k => 1 ≤ k && mask.getLsbD k)

theorem mem_movpTargets (mask : BitVec 64) (k : Nat) :
    k ∈ movpTargets mask ↔ 1 ≤ k ∧ k < 16 ∧ mask.getLsbD k = true := by
  simp [movpTargets, and_left_comm]

/-- MOVP begins one effect for each predicate that its mask names. -/
theorem settle_issueMovp (a b : BitVec 6) (s : State) (hs : s.down = false) :
    settle (issueMovp a b) s = .next (begun s
      ((movpTargets ((issuer s).rs b)).map (fun k => (1, .pred k (((issuer s).rs a).getLsbD k))))) := by
  refine (settle_onTile_ok _ s _ hs rfl).trans ?_
  simp [begun, begunWith, pushed, issuer, movpTargets, Tile.pushAll, List.foldl_map]

/-! ### The tables -/

theorem exec_of_integerRow (s : State) (i : Instr) (d : BitVec 6) (lat : Nat) (v : BitVec 64) (hs : s.down = false)
    (h : integerRow (issuer s) i = some (d, lat, v)) :
    exec i s = .next (begun s [(lat, (issuer s).wScalar d v)]) := by
  cases i with
  | add => cases h; exact begun_of_scalarRes hs (exec_add ..) rfl
  | sub => cases h; exact begun_of_scalarRes hs (exec_sub ..) rfl
  | mul => cases h; exact begun_of_scalarRes hs (exec_mul ..) rfl
  | mulh => cases h; exact begun_of_scalarRes hs (exec_mulh ..) (ofInt_mul_div_eq_extractLsb' ..)
  | mulhu => cases h; exact begun_of_scalarRes hs (exec_mulhu ..) (ofNat_mul_div_eq_extractLsb' ..)
  | and => cases h; exact begun_of_scalarRes hs (exec_and ..) rfl
  | or => cases h; exact begun_of_scalarRes hs (exec_or ..) rfl
  | xor => cases h; exact begun_of_scalarRes hs (exec_xor ..) rfl
  | andn => cases h; exact begun_of_scalarRes hs (exec_andn ..) rfl
  | shl => cases h; exact begun_of_scalarRes hs (exec_shl ..) (congrArg _ (toNat_and_63 _).symm)
  | shr => cases h; exact begun_of_scalarRes hs (exec_shr ..) (congrArg _ (toNat_and_63 _).symm)
  | sar => cases h; exact begun_of_scalarRes hs (exec_sar ..) (congrArg _ (toNat_and_63 _).symm)
  | rol => cases h; exact begun_of_scalarRes hs (exec_rol ..) (rol64_cnt6 ..)
  | min => cases h; exact begun_of_scalarRes hs (exec_min ..) (signedMin_eq ..)
  | max => cases h; exact begun_of_scalarRes hs (exec_max ..) (signedMax_eq ..)
  | minu => cases h; exact begun_of_scalarRes hs (exec_minu ..) (unsignedMin_eq ..)
  | maxu => cases h; exact begun_of_scalarRes hs (exec_maxu ..) (unsignedMax_eq ..)
  | extb => cases h; exact begun_of_scalarRes hs (exec_extb ..) (ushiftRight_and_ones ..)
  | sel => cases h; exact begun_of_scalarRes hs (exec_sel ..) rfl
  | addi => cases h; exact begun_of_scalarRes hs (exec_addi ..) rfl
  | andi => cases h; exact begun_of_scalarRes hs (exec_andi ..) rfl
  | ori => cases h; exact begun_of_scalarRes hs (exec_ori ..) rfl
  | xori => cases h; exact begun_of_scalarRes hs (exec_xori ..) rfl
  | shli => cases h; exact begun_of_scalarRes hs (exec_shli ..) rfl
  | shri => cases h; exact begun_of_scalarRes hs (exec_shri ..) rfl
  | sari => cases h; exact begun_of_scalarRes hs (exec_sari ..) rfl
  | li => cases h; exact begun_of_scalarRes hs (exec_li ..) rfl
  | lih =>
    cases h
    exact begun_of_scalarRes hs (exec_lih ..) (congrArg _ (BitVec.setWidth_eq_extractLsb' (by decide)).symm)
  | _ => cases h

theorem exec_of_predicateRow (s : State) (i : Instr) (d : BitVec 4) (v : Bool) (hs : s.down = false)
    (h : predicateRow (issuer s) i = some (d, v)) : exec i s = .next (begun s [(1, .pred d.toNat v)]) := by
  cases i with
  | cmpeq => cases h; exact begun_of_predRes hs (exec_cmpeq ..) (beq_eq_decide_eq ..)
  | cmpne => cases h; exact begun_of_predRes hs (exec_cmpne ..) (bne_eq_decide_ne ..)
  | cmplt => cases h; exact begun_of_predRes hs (exec_cmplt ..) BitVec.slt_eq_decide
  | cmple => cases h; exact begun_of_predRes hs (exec_cmple ..) BitVec.sle_eq_decide
  | cmpltu => cases h; exact begun_of_predRes hs (exec_cmpltu ..) BitVec.ult_eq_decide
  | cmpleu => cases h; exact begun_of_predRes hs (exec_cmpleu ..) BitVec.ule_eq_decide
  | cmpeqi => cases h; exact begun_of_predRes hs (exec_cmpeqi ..) (beq_eq_decide_eq ..)
  | cmplti => cases h; exact begun_of_predRes hs (exec_cmplti ..) (slt_simm ..)
  | pand => cases h; exact begun_of_predRes hs (exec_pand ..) (by simp)
  | por => cases h; exact begun_of_predRes hs (exec_por ..) (by simp)
  | pxor => cases h; exact begun_of_predRes hs (exec_pxor ..) (bne_eq_decide_ne ..)
  | pnot => cases h; exact begun_of_predRes hs (exec_pnot ..) (by simp)
  | _ => cases h

/-- Settles O1: each row of the table by its value lemma; INSB, CLZ and POPC by what their bits and counts are. -/
theorem integerResultsOfScalarSlots : Obligations.IntegerResultsOfScalarSlots := by
  refine ⟨exec_of_integerRow, fun s d a b w hs => ⟨?_, ?_, ?_⟩⟩
  · exact ⟨_, inserted_insb _ _ _ _, begun_of_scalarRes hs (exec_insb ..) rfl⟩
  · exact ⟨_, leadingZeros_clz64 _, begun_of_scalarRes hs (exec_clz ..) rfl⟩
  · exact begun_of_scalarRes hs (exec_popc ..) (congrArg _ (popc64_eq_countP _))

/-- Settles O2: each row of the table by its value lemma; MOVPS by its bits, MOVP by the predicates that its mask
names. -/
theorem predicateResultsOfScalarSlots : Obligations.PredicateResultsOfScalarSlots := by
  refine fun s d e a b hs => ⟨fun i v h => exec_of_predicateRow s i d v hs h, rp_zero, ?_, ?_⟩
  · exact ⟨_, getLsbD_movps _, begun_of_scalarRes hs (exec_movps ..) rfl⟩
  · exact ⟨_, mem_movpTargets _, settle_issueMovp a b s hs⟩

end Sys2Proof.ScalarSlots
